-- ==== Sys2Proof/Word.lean ====
section
/-! DEFINITION. The word types of the module: bytes, and the 16-, 32-, 64- and 128-bit words the manual
numbers as bits (little-endian in memory, 00_scope.md, "Notation and units"). -/

namespace Sys2Proof

abbrev Byte := BitVec 8
abbrev Half := BitVec 16
abbrev Word32 := BitVec 32
abbrev Word := BitVec 64
abbrev Word128 := BitVec 128

end Sys2Proof
end

