-- ==== Sys2Proof/Syntax.lean ====
section
/-! DEFINITION. The commands of the module: the operand types and the one inductive Instr, a constructor for
each row of spec/opcode_table.json. The table gives its rows no operands, so the operands are the
model's: the unit a step happens in, the instruction's own encoded fields, and what the outside supplies. -/

namespace Sys2Proof

/-- A logical cell, by physical field number and logical cell number in the field (R5, R24). -/
structure CellRef where
  field : Fin 72
  lcell : Fin 384
deriving DecidableEq, Repr

/-- Scalar form X (R140, Table 06-8), without the opcode. -/
structure XForm where
  rd : BitVec 5
  ra : BitVec 5
  rb : BitVec 5
  u : BitVec 3
  fn : BitVec 8
deriving DecidableEq, Repr

/-- Scalar form I (R140, Table 06-8), without the opcode. -/
structure IForm where
  rd : BitVec 5
  ra : BitVec 5
  imm : BitVec 16
deriving DecidableEq, Repr

/-- FENCE's form I, without the kind bits IMM16[1:0] that the row itself gives (R141, R230). -/
structure FenceForm where
  rd : BitVec 5
  ra : BitVec 5
  hi : BitVec 14
deriving DecidableEq, Repr

/-- Scalar form B (R140, Table 06-8), without the opcode. -/
structure BForm where
  ra : BitVec 5
  rb : BitVec 5
  off : BitVec 16
deriving DecidableEq, Repr

/-- Form X of a SYS instruction, whose FN the row itself gives (R141, Table 06-9). -/
structure SysForm where
  rd : BitVec 5
  ra : BitVec 5
  rb : BitVec 5
  u : BitVec 3
deriving DecidableEq, Repr

/-- Vector class R (R129, Table 06-2), without the opcode; `rsv` is bits [21:8]. -/
structure VRForm where
  vd : BitVec 5
  va : BitVec 5
  vb : BitVec 5
  vc : BitVec 5
  men : BitVec 1
  mr : BitVec 3
  mz : BitVec 1
  rnd : BitVec 2
  fmt : BitVec 4
  sub : BitVec 3
  rsv : BitVec 14
  imm8 : BitVec 8
deriving DecidableEq, Repr

/-- Vector class I (R129, Table 06-2), without the opcode; `rsv` is bits [50:32]. -/
structure VIForm where
  vd : BitVec 5
  rsv : BitVec 19
  imm : Word32
deriving DecidableEq, Repr

/-- Vector class M (R129, Table 06-2), without the opcode. -/
structure VMForm where
  vd : BitVec 5
  ar : BitVec 3
  off : BitVec 12
  men : BitVec 1
  mr : BitVec 3
  unit : BitVec 4
  stride : BitVec 12
  form : BitVec 2
  wid : BitVec 3
  srcb : BitVec 5
  len : BitVec 3
  db : BitVec 3
deriving DecidableEq, Repr

/-- Vector class C (R129, Table 06-2), without the opcode; `rsv` is bits [36:32], `rsv2` bit [16]. -/
structure VCForm where
  vd : BitVec 5
  ar : BitVec 3
  ka : BitVec 3
  sub : BitVec 2
  port : BitVec 3
  grp : BitVec 3
  rsv : BitVec 5
  target : BitVec 15
  rsv2 : BitVec 1
  imm : Half
deriving DecidableEq, Repr

/-- A router output: plane, mesh coordinates (R209) and direction 0 north, 1 east, 2 south, 3 west, 4 local. -/
structure MeshOut where
  reply : Bool
  mx : Fin 216
  my : Fin 128
  dir : Fin 5
deriving DecidableEq, Repr

/-- Where a flit's parity fails (R369); `again`: the resent flit fails too. -/
inductive FlitError where
  | corrected
  | payload (word : Nat)
  | header
  | headerBoth
deriving DecidableEq, Repr

/-- Who writes a set-up register: the physical function, a virtual function window, or an engine of the
company through space 0x2 (R168, R309, R310). -/
inductive WSrc where
  | pf
  | vf
  | engine
deriving DecidableEq, Repr

/-- The path of a register write: BAR0 of a physical function, the window of a virtual function of a host port (R308, R309), space 0x2 of
a company's engine (R462), or BAR2 of a function of a host port, with its MSI-X table (R280). -/
inductive WPath where
  | pf
  | vf (hp : Fin 4) (fn : Fin 17)
  | engine (co : Fin 16)
  | bar2 (hp : Fin 4) (fn : Fin 17)
deriving DecidableEq, Repr

/-- A link frame: the four header words, the payload words, and whether its FEC codewords could be
corrected (R245, R248); `dst`: the descriptor's DST that a multicast chunk carries (R268), for which Table 11-3 has no bits (log entry
49). -/
structure Frame where
  w0 : Word
  w1 : Word
  w2 : Word
  w3 : Word
  payload : List Word
  fecOk : Bool
  dst : Nat
deriving DecidableEq, Repr

/-- Where a packet of another device or for one is in this device (R254): at an edge of a port, or on the mesh at a router output. -/
inductive ResAt where
  | ingress
  | egress
  | mesh (o : MeshOut)
deriving DecidableEq, Repr

/-- What the loader's reads of an image return: the image bytes, the group list bytes, and whether a
read completed with an error in the check pass (R298). -/
structure ImageRead where
  image : List Byte
  groups : List Byte
  ok : Bool
deriving DecidableEq, Repr

/-- What announces an MSI-X message: the function's events (vector 0) or a completion ring (R288). -/
inductive MsiSrc where
  | events
  | ring (r : Fin 64)
deriving DecidableEq, Repr

/-- How an access to the host window ends on PCIe (R303). -/
inductive HostReply where
  | data (bytes : List Byte)
  | unsupported
  | abort
  | poison
  | timeout
deriving DecidableEq, Repr

/-- The five strap levels the standby logic reads at power-good (R446, Table 21-6). -/
structure Straps where
  clkchk : Fin 8
  delay : Fin 8
  refclk : Fin 8
  boot : Fin 8
  addr : Fin 8
deriving DecidableEq, Repr

/-- A clock source that can fail in operation (Table 14-3), field PLLs apart. -/
inductive ClkSrc where
  | refclk
  | house
  | mgmtPll
  | meshPll
  | stratPll (f : Fin 72)
  | serdesPll (p : Fin 48)
  | pciePll (hp : Fin 4)
deriving DecidableEq, Repr

/-- What a bring-up step found (R354, R355, R358, Table 16-2): failed cells by field, row and physical column; those that fail only
the patterns that a quick start leaves out; mesh links inside a field-row by field, row and western column; seam links by field, row
and whether the seam is the field's southern one (else its eastern one); stratum rows that fail the march, by field, channel, bank and
row index in the bank; channels with a bank out of spare rows; field PLLs that did not lock; failed lanes by port and lane; fields whose
voltages do not match FIELD_OPP. -/
structure Findings where
  cells : List (Nat × Nat × Nat)
  cellsSlow : List (Nat × Nat × Nat)
  links : List (Nat × Nat × Nat)
  seams : List (Nat × Nat × Bool)
  stratRows : List (Nat × Nat × Nat × Nat)
  channels : List (Nat × Nat)
  fieldPlls : List Nat
  lanes : List (Nat × Nat)
  volts : List Nat
deriving DecidableEq, Repr

/-- A firmware image as the ROM reads it (R410, R412): its bytes, its signature, its security version number
and the minimum it declares. -/
structure BootImage where
  bytes : List Byte
  sig : List Byte
  svn : BitVec 32
  minSvn : BitVec 32
deriving DecidableEq, Repr

/-- What a reset covers (R391, Table 18-1). -/
inductive ResetScope where
  | context (co : Fin 16)
  | engine (f : Fin 72)
  | partition (co : Fin 16)
  | chip
deriving DecidableEq, Repr

/-- A reset past its limit (R397), and the engines that have not stopped. -/
structure Escalation where
  scope : ResetScope
  stuck : List (CellRef × Fin 10)
deriving DecidableEq, Repr

/-- What the module limiter measures (R338, R353): the power in watts, the coolant's temperatures in quarter degrees. -/
structure ModuleSample where
  watts : Nat
  inlet : Nat
  outlet : Nat
deriving DecidableEq, Repr

/-- A finished copy between the devices of an encore (R375): whether the partner fits, the step's scene S0, the output range and, where
this device serves, the bytes copied. -/
structure EncoreCopy where
  co : Fin 16
  fit : Bool
  s0 : Fin 256
  off : Nat
  len : Nat
  data : List Byte
deriving DecidableEq, Repr

/-- A port's training as it ended (R243): whether the far end is up, the lanes that failed it, the spare last. -/
structure Training where
  ok : Bool
  bad : BitVec 17
deriving DecidableEq, Repr

/-- The watchdog's moments (R398, Table 18-3). -/
inductive WdogEvent where
  | missed
  | rebootMissed
deriving DecidableEq, Repr

/-- Whose generation (R399): the device's, a company's, or an engine's (unit 0-7 a core, 9 the fly engine). -/
inductive GenScope where
  | device
  | company (co : Fin 16)
  | engine (c : CellRef) (unit : Fin 10)
deriving DecidableEq, Repr

/-- A power domain that can be powered down under traffic (R403, Table 01-8). -/
inductive Domain where
  | compute (f : Fin 72)
  | fabric (f : Fin 72)
  | optical (p : Fin 48)
  | host (hp : Fin 4)
deriving DecidableEq, Repr

/-- A transport endpoint of the attestation responder (R416). -/
inductive SpdmEndpoint where
  | doe (hp : Fin 4)
  | mctp
deriving DecidableEq, Repr

/-- The parts of an SPDM request that R415 and R416 speak of: the SPDM version, whether every algorithm it
asks for is one of Table 19-3, Param1, Param2 and the requester's nonce. -/
structure SpdmReq where
  version : BitVec 8
  algOk : Bool
  param1 : BitVec 8
  param2 : BitVec 8
  nonce : List Byte
deriving DecidableEq, Repr

/-- A watermark notice: one of the 64 programmable ones (R427) or a channel's hot-channel notice (R428). -/
inductive NoticeRef where
  | wm (n : Fin 64)
  | hot (f : Fin 72) (ch : Fin 16)
deriving DecidableEq, Repr

/-- The commands of the module: one constructor for each row of spec/opcode_table.json, in its order. -/
inductive Instr where
  /-- ALU (R142). Scalar ALU instruction computes rd from ra and rb with the function FN selects. -/
  | alu (c : CellRef) (x : XForm)
  /-- ADDI (R141). Scalar add of a sign-extended immediate. -/
  | addi (c : CellRef) (i : IForm)
  /-- ANDI (R141). Scalar AND with a zero-extended immediate. -/
  | andi (c : CellRef) (i : IForm)
  /-- ORI (R141). Scalar OR with a zero-extended immediate. -/
  | ori (c : CellRef) (i : IForm)
  /-- XORI (R141). Scalar XOR with a zero-extended immediate. -/
  | xori (c : CellRef) (i : IForm)
  /-- SHI (R141). Scalar shift by an immediate amount. -/
  | shi (c : CellRef) (i : IForm)
  /-- LUI (R141). Scalar load of an upper immediate. -/
  | lui (c : CellRef) (i : IForm)
  /-- SLTI (R141). Scalar signed set-less-than against an immediate. -/
  | slti (c : CellRef) (i : IForm)
  /-- LB (R143). Scalar signed byte load from a local address. -/
  | lb (c : CellRef) (i : IForm)
  /-- LBU (R143). Scalar unsigned byte load from a local address. -/
  | lbu (c : CellRef) (i : IForm)
  /-- LH (R143). Scalar signed halfword load from a local address. -/
  | lh (c : CellRef) (i : IForm)
  /-- LHU (R143). Scalar unsigned halfword load from a local address. -/
  | lhu (c : CellRef) (i : IForm)
  /-- LW (R143). Scalar signed word load from a local address. -/
  | lw (c : CellRef) (i : IForm)
  /-- LWU (R143). Scalar unsigned word load from a local address. -/
  | lwu (c : CellRef) (i : IForm)
  /-- LD (R143). Scalar 8-byte load from a local address. -/
  | ld (c : CellRef) (i : IForm)
  /-- SB (R143). Scalar byte store through the gather buffer. -/
  | sb (c : CellRef) (i : IForm)
  /-- SH (R143). Scalar halfword store through the gather buffer. -/
  | sh (c : CellRef) (i : IForm)
  /-- SW (R143). Scalar word store through the gather buffer. -/
  | sw (c : CellRef) (i : IForm)
  /-- SD (R143). Scalar 8-byte store through the gather buffer. -/
  | sd (c : CellRef) (i : IForm)
  /-- FLD (R144). Scalar 8-byte load from a fabric address, sent over the mesh after the address checks. -/
  | fld (c : CellRef) (x : XForm)
  /-- FST (R144). Scalar 8-byte store to a fabric address. -/
  | fst (c : CellRef) (x : XForm)
  /-- FATOM (R144). Scalar atomic operation on 8 bytes at a fabric address. -/
  | fatom (c : CellRef) (x : XForm)
  /-- FABRIC_REPLY (R144). Reply to an outstanding FLD, FST or FATOM arrives and completes, faults, sets FSTAT or holds the job. -/
  | fabricReply (c : CellRef) (id : Nat)
  /-- FENCE_RELEASE (R230). Release fence flushes the gather buffer and completes when earlier writes are visible. -/
  | fenceRelease (c : CellRef) (r : FenceForm)
  /-- FENCE_ACQUIRE (R230). Acquire fence flushes the gather buffer and completes when earlier loads have returned. -/
  | fenceAcquire (c : CellRef) (r : FenceForm)
  /-- FULL_FENCE (R230). Full fence combines release and acquire conditions and holds every later instruction. -/
  | fullFence (c : CellRef) (r : FenceForm)
  /-- BEQ (R141). Branch if equal. -/
  | beq (c : CellRef) (b : BForm)
  /-- BNE (R141). Branch if not equal. -/
  | bne (c : CellRef) (b : BForm)
  /-- BLT (R141). Branch if signed less than. -/
  | blt (c : CellRef) (b : BForm)
  /-- BGE (R141). Branch if signed greater or equal. -/
  | bge (c : CellRef) (b : BForm)
  /-- BLTU (R141). Branch if unsigned less than. -/
  | bltu (c : CellRef) (b : BForm)
  /-- BGEU (R141). Branch if unsigned greater or equal. -/
  | bgeu (c : CellRef) (b : BForm)
  /-- JAL (R141). Jump and link into x31. -/
  | jal (c : CellRef) (off : BitVec 26)
  /-- JALR (R141). Jump to a register target and link. -/
  | jalr (c : CellRef) (i : IForm)
  /-- MCPUSH (R145). Push a 128-bit command to a matrix core queue, waiting for room or returning its fault code. -/
  | mcpush (c : CellRef) (x : XForm)
  /-- MCRD (R145). Read MC_STATUS or PMASK of a matrix core. -/
  | mcrd (c : CellRef) (x : XForm)
  /-- MCCLR (R145). Clear a matrix core's FAULT so it accepts pushes again. -/
  | mcclr (c : CellRef) (x : XForm)
  /-- MCWAIT (R145). Wait until a matrix core's COMPLETED passes a count or it faults. -/
  | mcwait (c : CellRef) (x : XForm)
  /-- VSTART (R146). Start the vector core at an instruction index once it is halted without fault. -/
  | vstart (c : CellRef) (x : XForm)
  /-- VSETA (R146). Write a vector address register while the vector core is halted. -/
  | vseta (c : CellRef) (x : XForm)
  /-- VRD (R141). Read VC_STATUS or a vector address register. -/
  | vrd (c : CellRef) (x : XForm)
  /-- VCLR (R146). Clear VC_STATUS.FAULT and set the vector PC to 0. -/
  | vclr (c : CellRef) (x : XForm)
  /-- FLY (R147). Issue a fly descriptor, checking it and allocating the lowest free tag. -/
  | fly (c : CellRef) (x : XForm)
  /-- FLYWAIT (R147). Wait for a fly transfer tag and return its completion status. -/
  | flywait (c : CellRef) (x : XForm)
  /-- ASEND (R148). Send an aside message of 1 to 4 words on an outgoing channel. -/
  | asend (c : CellRef) (x : XForm)
  /-- ARECV (R148). Receive an aside message from an incoming channel, waiting or not. -/
  | arecv (c : CellRef) (x : XForm)
  /-- TIN (R156). Scalar core takes the next token of an input stream port. -/
  | tin (c : CellRef) (x : XForm)
  /-- TOUT (R156). Scalar core sends a token on an output stream port. -/
  | tout (c : CellRef) (x : XForm)
  /-- WAITEV (R152). Wait until a masked EVENTS bit is set and return the masked events. -/
  | waitev (c : CellRef) (x : XForm)
  /-- CSRR (R152). Read a scalar core CSR. -/
  | csrr (c : CellRef) (y : SysForm)
  /-- CSRW (R152). Write a scalar core CSR, including W1C clears of EVENTS and ASTAT. -/
  | csrw (c : CellRef) (y : SysForm)
  /-- SCENEACK (R149). Acknowledge a requested scene change and wait for the new scene. -/
  | sceneack (c : CellRef) (y : SysForm)
  /-- JEND (R150). End the cell's part of the job after draining its units, signalling job end with a status. -/
  | jend (c : CellRef) (y : SysForm)
  /-- SEEDV (R146). Write the vector core's stochastic-rounding state. -/
  | seedv (c : CellRef) (y : SysForm)
  /-- GATHER_TIMEOUT_FLUSH (R52). A gather buffer entry idle for GATHER_TIMEOUT cycles is flushed. -/
  | gatherTimeoutFlush (c : CellRef) (aside : Bool) (i : Nat)
  /-- ECC_WRITE_BACK (R60). A corrected cell-memory word is written back in the bank's next free write slot. -/
  | eccWriteBack (c : CellRef) (i : Nat)
  /-- SCRUB_READ (R61). Background scrub reads one row per bank and slice every 2^SCRUB_SHIFT cycles. -/
  | scrubRead (c : CellRef) (unit : Fin 9) (row : BitVec 12)
  /-- MMA (R96). Matrix multiply-accumulate of two operands into an accumulator over KB+1 blocks. -/
  | mma (c : CellRef) (u : Fin 6)
  /-- MMASP (R116). Block-sparse multiply-accumulate walking operand metadata. -/
  | mmasp (c : CellRef) (u : Fin 6)
  /-- PREVIEW (R97). Sketch pass over a 32 x 32 output block that sets one PMASK bit. -/
  | preview (c : CellRef) (u : Fin 6)
  /-- LDACC (R98). Load one accumulator from 16 FP32 rows. -/
  | ldacc (c : CellRef) (u : Fin 6)
  /-- STACC (R99). Convert and store an accumulator or pair to memory. -/
  | stacc (c : CellRef) (u : Fin 6)
  /-- ZACC (R100). Set selected accumulators to +0 and reset their checksum lines. -/
  | zacc (c : CellRef) (u : Fin 6)
  /-- SEED (R100). Write the matrix core's stochastic-rounding state. -/
  | seed (c : CellRef) (u : Fin 6)
  /-- SETMASK (R100). Write PMASK. -/
  | setmask (c : CellRef) (u : Fin 6)
  /-- SYNC (R93). Completes when every earlier command has completed. -/
  | sync (c : CellRef) (u : Fin 6)
  /-- MATRIX_COMMAND_COMPLETE (R93). A begun matrix command completes, advancing COMPLETED in queue order. -/
  | matrixCommandComplete (c : CellRef) (u : Fin 6) (i : Nat)
  /-- VADD (R131). Vector add. -/
  | vadd (c : CellRef) (r : VRForm)
  /-- VSUB (R131). Vector subtract. -/
  | vsub (c : CellRef) (r : VRForm)
  /-- VMUL (R131). Vector multiply. -/
  | vmul (c : CellRef) (r : VRForm)
  /-- VFMA (R131). Vector fused multiply-add. -/
  | vfma (c : CellRef) (r : VRForm)
  /-- VFNMA (R131). Vector negated fused multiply-add. -/
  | vfnma (c : CellRef) (r : VRForm)
  /-- VMIN (R131). Vector floating minimum. -/
  | vmin (c : CellRef) (r : VRForm)
  /-- VMAX (R131). Vector floating maximum. -/
  | vmax (c : CellRef) (r : VRForm)
  /-- VDIV (R131). Vector divide. -/
  | vdiv (c : CellRef) (r : VRForm)
  /-- VSQRT (R131). Vector square root. -/
  | vsqrt (c : CellRef) (r : VRForm)
  /-- VRSQRT (R131). Vector reciprocal square root. -/
  | vrsqrt (c : CellRef) (r : VRForm)
  /-- VEXP2 (R131). Vector base-2 exponential. -/
  | vexp2 (c : CellRef) (r : VRForm)
  /-- VLOG2 (R131). Vector base-2 logarithm. -/
  | vlog2 (c : CellRef) (r : VRForm)
  /-- VABS (R131). Vector absolute value. -/
  | vabs (c : CellRef) (r : VRForm)
  /-- VNEG (R131). Vector negation. -/
  | vneg (c : CellRef) (r : VRForm)
  /-- VCMP (R131). Vector floating compare into a mask register. -/
  | vcmp (c : CellRef) (r : VRForm)
  /-- VICMP (R131). Vector integer compare into a mask register. -/
  | vicmp (c : CellRef) (r : VRForm)
  /-- VRSUM (R132). Fixed-tree sum reduction of a row, column or whole tile. -/
  | vrsum (c : CellRef) (r : VRForm)
  /-- VRMAX (R132). Fixed-tree maximum reduction. -/
  | vrmax (c : CellRef) (r : VRForm)
  /-- VRMIN (R132). Fixed-tree minimum reduction. -/
  | vrmin (c : CellRef) (r : VRForm)
  /-- VCVT (R133). Convert between FP32 and packed BF16. -/
  | vcvt (c : CellRef) (r : VRForm)
  /-- VF2I (R131). Convert FP32 to int32. -/
  | vf2i (c : CellRef) (r : VRForm)
  /-- VI2F (R131). Convert int32 to FP32. -/
  | vi2f (c : CellRef) (r : VRForm)
  /-- VQMX (R133). Quantise 64 FP32 lanes into two MX blocks. -/
  | vqmx (c : CellRef) (r : VRForm)
  /-- VDQMX (R133). Widen two MX or weight blocks to 64 FP32 lanes. -/
  | vdqmx (c : CellRef) (r : VRForm)
  /-- VSKETCH (R134). Compute 2-bit sketch codes of 64 values. -/
  | vsketch (c : CellRef) (r : VRForm)
  /-- VIADD (R131). Vector int32 add. -/
  | viadd (c : CellRef) (r : VRForm)
  /-- VISUB (R131). Vector int32 subtract. -/
  | visub (c : CellRef) (r : VRForm)
  /-- VIMUL (R131). Vector int32 multiply, low bits. -/
  | vimul (c : CellRef) (r : VRForm)
  /-- VAND (R131). Vector bitwise AND. -/
  | vand (c : CellRef) (r : VRForm)
  /-- VOR (R131). Vector bitwise OR. -/
  | vor (c : CellRef) (r : VRForm)
  /-- VXOR (R131). Vector bitwise XOR. -/
  | vxor (c : CellRef) (r : VRForm)
  /-- VSHL (R131). Vector shift left. -/
  | vshl (c : CellRef) (r : VRForm)
  /-- VSHR (R131). Vector logical shift right. -/
  | vshr (c : CellRef) (r : VRForm)
  /-- VSRA (R131). Vector arithmetic shift right. -/
  | vsra (c : CellRef) (r : VRForm)
  /-- VIMIN (R131). Vector signed int32 minimum. -/
  | vimin (c : CellRef) (r : VRForm)
  /-- VIMAX (R131). Vector signed int32 maximum. -/
  | vimax (c : CellRef) (r : VRForm)
  /-- VMOV (R131). Vector register move. -/
  | vmov (c : CellRef) (r : VRForm)
  /-- VPERM (R131). Vector lane permutation. -/
  | vperm (c : CellRef) (r : VRForm)
  /-- VTRANS (R131). Vector 8 x 8 tile transpose. -/
  | vtrans (c : CellRef) (r : VRForm)
  /-- VBCAST (R131). Broadcast one lane to all lanes. -/
  | vbcast (c : CellRef) (r : VRForm)
  /-- VSPLAT (R131). Set every lane to an immediate. -/
  | vsplat (c : CellRef) (r : VIForm)
  /-- KLOGIC (R131). Mask register logic function. -/
  | klogic (c : CellRef) (r : VRForm)
  /-- KPOP (R131). Population count of a mask into every lane. -/
  | kpop (c : CellRef) (r : VRForm)
  /-- KFROMV (R131). Build a mask from non-zero lanes. -/
  | kfromv (c : CellRef) (r : VRForm)
  /-- VFROMK (R131). Expand a mask into int32 lanes. -/
  | vfromk (c : CellRef) (r : VRForm)
  /-- VLD (R135). Vector load of plain, strided or transposed rows. -/
  | vld (c : CellRef) (r : VMForm)
  /-- VST (R135). Vector store of plain or strided rows. -/
  | vst (c : CellRef) (r : VMForm)
  /-- VSTP (R135). Vector partial store of bytes of a register. -/
  | vstp (c : CellRef) (r : VMForm)
  /-- VSETAI (R131). Set a vector address register to an immediate. -/
  | vsetai (c : CellRef) (r : VCForm)
  /-- VADDAI (R131). Add an immediate to a vector address register. -/
  | vaddai (c : CellRef) (r : VCForm)
  /-- VLOOP (R131). Decrement an address register and branch if non-zero. -/
  | vloop (c : CellRef) (r : VCForm)
  /-- VJMP (R131). Vector jump. -/
  | vjmp (c : CellRef) (r : VCForm)
  /-- VBRK (R131). Vector branch on a mask being any or none. -/
  | vbrk (c : CellRef) (r : VCForm)
  /-- VTIN (R156). Vector core takes a token into eight lanes. -/
  | vtin (c : CellRef) (r : VCForm)
  /-- VTOUT (R156). Vector core sends eight lanes as a token. -/
  | vtout (c : CellRef) (r : VCForm)
  /-- VFENCE (R131). Complete when earlier vector stores have landed. -/
  | vfence (c : CellRef) (r : VCForm)
  /-- VHALT (R131). Halt the vector core after its stores land, setting VDONE. -/
  | vhalt (c : CellRef) (r : VCForm)
  /-- FLY_REQUEST_ISSUE (R201). The fly engine issues the next request of its active transfers round-robin. -/
  | flyRequestIssue (c : CellRef)
  /-- FLY_REPLY (R203). A reply to a fly request arrives and its rows land or the transfer ends or holds. -/
  | flyReply (c : CellRef) (i : Nat)
  /-- FLY_TRANSFER_COMPLETE (R202). A transfer completes: completion word stored, tag freed, FLYDONE set. -/
  | flyTransferComplete (c : CellRef) (tag : Fin 16)
  /-- CELL_MEMORY_REQUEST (R212). An inbound mesh request to cell memory is served by the target fly engine. -/
  | cellMemoryRequest (c : CellRef)
  /-- ASIDE_DELIVERY (R222). An aside message's header arrives and it is queued or refused. -/
  | asideDelivery (c : CellRef)
  /-- ASIDE_REFUSAL (R222). A refusal reaches the sender and sets ASTAT.REFUSED and REFUSE. -/
  | asideRefusal (c : CellRef)
  /-- MESH_PACKET_HOP (R208). A router output begins the next packet at a boundary under the bulk and control rules. -/
  | meshPacketHop (o : MeshOut)
  /-- MESH_FLIT_PARITY_ERROR (R369). A flit with bad parity is resent once, then delivered poisoned or discarded. -/
  | meshFlitParityError (o : MeshOut) (e : FlitError)
  /-- TOKEN_DEPARTURE (R158). A link output sends its slot owner's readable head token when it holds credit. -/
  | tokenDeparture (c : CellRef) (out : Fin 4)
  /-- SEAM_TOKEN_ARRIVAL (R161). A token crossing a seam enters the receiving queue after the crossing. -/
  | seamTokenArrival (c : CellRef) (inp : Fin 4)
  /-- CREDIT_RETURN (R159). A released queue entry returns a credit to the sending output. -/
  | creditReturn (c : CellRef) (out : Fin 4) (q : Fin 80)
  /-- STEERING_FIRE (R162). A steering unit fires as switch, select, merge or fork. -/
  | steeringFire (c : CellRef) (su : Fin 8)
  /-- RIG_SAMPLE_RECORD (R176). Each rigging node writes a sample record every 4,096 cycles. -/
  | rigSampleRecord (c : CellRef)
  /-- SCENE_GO (R168). A SCENE_CTRL write with GO = 1 begins a scene change or records why not. -/
  | sceneGo (co : Fin 16) (src : WSrc) (v : Word)
  /-- SCENE_STAGE (R168). A SCENE_CTRL write with STAGE = 1 stages a scene's plans. -/
  | sceneStage (co : Fin 16) (src : WSrc) (v : Word)
  /-- STAGING_COMPLETE (R168). Staging finishes: STAGED and STAGED_VALID set, BUSY cleared. -/
  | stagingComplete (co : Fin 16)
  /-- SCENE_REQUEST (R169). Stagehands set SCENE_REQ in every job cell's scalar core. -/
  | sceneRequest (co : Fin 16) (f : Fin 72)
  /-- STRIKE_CLEAN (R171). A graceful strike is detected clean and installation follows. -/
  | strikeClean (co : Fin 16)
  /-- STRIKE_TIMEOUT (R171). STRIKE_US expires and the strike becomes forced, discarding tokens. -/
  | strikeTimeout (co : Fin 16)
  /-- ACK_TIMEOUT (R170). ACK_MS expires before every acknowledgement and the scene change fails. -/
  | ackTimeout (co : Fin 16)
  /-- SCENE_INSTALL (R172). A field swaps plan banks, resets queues and credits and applies aside enables. -/
  | sceneInstall (co : Fin 16) (f : Fin 72)
  /-- SCENE_RELEASE (R172). Prompter releases every field into the new scene once all have installed. -/
  | sceneRelease (co : Fin 16)
  /-- STRATUM_REQUEST (R180). A channel controller serves a waiting request by age and open row. -/
  | stratumRequest (f : Fin 72) (ch : Fin 16) (aged : Nat)
  /-- STRATUM_ROW_CLOSE (R180). A bank row idle for 128 ns is closed. -/
  | stratumRowClose (f : Fin 72) (ch : Fin 16) (bank : Nat)
  /-- STRATUM_WRITE_BACK (R190). A corrected burst is written back at the controller's next idle write slot. -/
  | stratumWriteBack (f : Fin 72) (ch : Fin 16) (i : Nat)
  /-- STRATUM_SCRUB (R192). The controller scrubs a burst in an idle slot. -/
  | stratumScrub (f : Fin 72) (ch : Fin 16) (layer : Fin 2) (burst : BitVec 24)
  /-- STRATUM_ZERO_FILL_DONE (R193). A field's stratum zero-fill completes and the field becomes ready. -/
  | stratumZeroFillDone (f : Fin 72)
  /-- STRATUM_TRAINING_DONE (R189). Stratum training ends and the field moves to zero-fill or ready. -/
  | stratumTrainingDone (f : Fin 72) (ok : Bool)
  /-- LINK_FRAME_RECEIVE (R245). A frame arrives, is checked by FEC and CRC and delivered in order or retried. -/
  | linkFrameReceive (p : Fin 48) (fr : Frame)
  /-- LINK_RETRY (R245). The sender resends frames from the first missing LINK_SEQ. -/
  | linkRetry (p : Fin 48) (sq : BitVec 10)
  /-- LANE_LOSS (R243). A lane loses lock and the spare is brought in or the port fails. -/
  | laneLoss (p : Fin 48) (lane : Fin 17)
  /-- LOSS_OF_SIGNAL (R244). Loss of signal for 10 us takes the port down. -/
  | lossOfSignal (p : Fin 48)
  /-- PORT_RETRAIN (R244). A down port retrains every 100 ms while PORT_EN is 1. -/
  | portRetrain (p : Fin 48)
  /-- PORT_EN_WRITE (R244). PORT_CTRL.PORT_EN write takes a port down or lets it train. -/
  | portEnWrite (p : Fin 48) (v : Word32)
  /-- SHEDIN_PACKET_ARRIVAL (R257). A packet at an ingress edge is flow-checked, delivered or routed onward. -/
  | shedinPacketArrival (p : Fin 48)
  /-- FLOW_ACKNOWLEDGEMENT (R251). A flow acknowledgement is sent after 8 us or 1,024 marks without a carrying packet. -/
  | flowAcknowledgement (dev : BitVec 12) (tc : Bool)
  /-- RESIDENCE_LIMIT (R254). A packet resident for 1 ms is discarded with status 0x12. -/
  | residenceLimit (p : Fin 48) (at_ : ResAt) (i : Nat)
  /-- REQUEST_TIMEOUT (R255). A remote request with no reply within REQ_TIMEOUT_MS frees its tag with 0x02. -/
  | requestTimeout (tag : BitVec 18)
  /-- INJECTION_QUIET_END (R252). 33 ms after links first come up, a reset device may inject again. -/
  | injectionQuietEnd
  /-- ADAPTIVE_LOAD_REPORT (R257). Each optical edge reports LOAD to every field every 1 us. -/
  | adaptiveLoadReport (p : Fin 48) (load : BitVec 3)
  /-- ROUTE_TABLE_WRITE (R259). A route-table write to the inactive version, or discarded with TABLE_LOST. -/
  | routeTableWrite (tb : Bool) (dev : BitVec 12) (v : Word)
  /-- FLIP (R260). Flip the injection epoch and start draining the old version. -/
  | flip (v : Word32)
  /-- DRAIN_RETIRE (R261). The draining version retires after quiet time or 10 ms. -/
  | drainRetire
  /-- BOUNCE_REINJECT (R262). A bounce reaches the source, which re-injects the packet in the new epoch. -/
  | bounceReinject
  /-- LEDGER_ADDITION (R265). Merged row counts are added to a company ledger. -/
  | ledgerAddition (co : Fin 16) (l : BitVec 12)
  /-- CHORUS_GO (R267). A descriptor offset is queued to the group's home engine. -/
  | chorusGo (co : Fin 16) (src : WSrc) (v : Word)
  /-- GROUP_DESCRIPTOR_START (R268). The home engine reads and checks a waiting group descriptor and opens a round. -/
  | groupDescriptorStart (co : Fin 16)
  /-- MULTICAST_CHUNK (R268). A multicast chunk is written at a member and passed to children. -/
  | multicastChunk (g : BitVec 10) (k : Nat)
  /-- CHORUS_CHUNK (R269). A chorus node combines chunk k once all inputs are held and sends it on. -/
  | chorusChunk (g : BitVec 10) (k : Nat)
  /-- ROUND_ABANDON (R272). A round with no progress for 100 ms is abandoned with 0x13. -/
  | roundAbandon (g : BitVec 10)
  /-- RESUME (R274). Resume a held job, reissuing its kept accesses. -/
  | resume (co : Fin 16) (src : WSrc) (v : Word)
  /-- ABANDON (R274). Abandon a held job as a context reset with status 0x02. -/
  | abandon (co : Fin 16) (src : WSrc) (v : Word)
  /-- SHEDIN_JOB_WRITE (R278). Write of the company's job number and REMOTE_CELL, refused outside EMPTY. -/
  | shedinJobWrite (co : Fin 16) (src : WSrc) (v : Word)
  /-- POLL (R284). The ring unit starts a call-board poll every POLL x 250 ns. -/
  | poll (co : Fin 16)
  /-- POLL_DATA (R286). Poll data returns; tails are checked for overrun and cues fetched. -/
  | pollData (co : Fin 16) (ok : Bool) (words : List Word)
  /-- CUE_READ_RETURN (R286). A cue read returns and its cues become ready to begin. -/
  | cueReadReturn (co : Fin 16) (r : Fin 64) (ok : Bool) (words : List Word)
  /-- NOP (R289). NOP cue completes with success. -/
  | nop (co : Fin 16) (r : Fin 64)
  /-- LOAD (R298). LOAD cue reads and checks a production image. -/
  | load (co : Fin 16) (r : Fin 64) (rd : ImageRead)
  /-- LOAD_FINISH (R298). The load's second read, writes, map and ledger reset complete and LOADED is set. -/
  | loadFinish (co : Fin 16) (rd : ImageRead)
  /-- RUN (R300). RUN cue writes ARG, installs the start scene and starts every job cell. -/
  | run (co : Fin 16) (r : Fin 64)
  /-- UNLOAD (R291). UNLOAD cue releases the production's groups, channels and scene stores. -/
  | unload (co : Fin 16) (r : Fin 64)
  /-- SCENE (R168). SCENE cue begins a scene change, waiting while BUSY. -/
  | scene (co : Fin 16) (r : Fin 64)
  /-- STOP_AT_INTERVAL (R301). STOP cue with MODE 0 sets STOP_PENDING. -/
  | stopAtInterval (co : Fin 16) (r : Fin 64)
  /-- STOP_NOW (R301). STOP cue with MODE 1 stops the job as a context reset. -/
  | stopNow (co : Fin 16) (r : Fin 64)
  /-- WAIT (R290). WAIT cue completes once a named cue of another ring has completed. -/
  | wait (co : Fin 16) (r : Fin 64)
  /-- JOB_END (R29). The last job-end signal arrives; the ring unit writes the run completion once writes are visible. -/
  | jobEnd (co : Fin 16)
  /-- RUN_TIMEOUT (R300). TIMEOUT_S expires and the job is stopped with 0x0306. -/
  | runTimeout (co : Fin 16)
  /-- MSI_X_MESSAGE (R288). An MSI-X message is sent when the moderation count or time is reached. -/
  | msiXMessage (co : Fin 16) (ms : MsiSrc) (timeUp : Bool)
  /-- CB_CTRL_WRITE (R284). CB_CTRL write turns polling on or off and sets interval and span. -/
  | cbCtrlWrite (co : Fin 16) (src : WSrc) (v : Word)
  /-- RING_CONFIG_WRITE (R285). Command or completion ring configuration write, enabling or disabling under the rules. -/
  | ringConfigWrite (co : Fin 16) (r : Fin 64) (cpl : Bool) (base : Bool) (src : WSrc) (v : Word)
  /-- HWIN_CFG_WRITE (R303). Host-window segment write, discarded while a job runs. -/
  | hwinCfgWrite (co : Fin 16) (n : Fin 64) (addr : Bool) (src : WSrc) (v : Word)
  /-- HOST_WINDOW_ACCESS (R303). An engine access to the host window is mapped to a host address and sent on PCIe. -/
  | hostWindowAccess (hp : Fin 4) (res : HostReply)
  /-- PERST_ASSERT (R437). PERSTp_N asserts, resetting the port and stopping its companies' work. -/
  | perstAssert (hp : Fin 4)
  /-- PERST_DEASSERT (R438). PERSTp_N deasserts and the port begins link training. -/
  | perstDeassert (hp : Fin 4)
  /-- VF_DISABLE (R463). SR-IOV stops enabling a bound virtual function, acting as PERST for its company. -/
  | vfDisable (hp : Fin 4) (n : Fin 17)
  /-- COMPANY_ENABLE (R306). COMPANY_DEF write with EN = 1 defines a company or is discarded. -/
  | companyEnable (co : Fin 16) (src : WSrc) (v : Word)
  /-- COMPANY_DISABLE (R306). COMPANY_DEF write with EN = 0 disables an idle company. -/
  | companyDisable (co : Fin 16) (src : WSrc) (v : Word)
  /-- COMPANY_READY (R307). READY is set once the company's power waves and zero-fill end. -/
  | companyReady (co : Fin 16)
  /-- COMPANY_SHARE_WRITE (R314). COMPANY_SHARE write accepted within limits or discarded with SHARE_LOST. -/
  | companyShareWrite (co : Fin 16) (src : WSrc) (v : Word)
  /-- DEV_NUM_WRITE (R456). DEV_NUM write sets the device number unless injection is open. -/
  | devNumWrite (v : Word32)
  /-- INJ_EN_WRITE (R277). SHEDIN_CTRL write opens or closes Shedin injection and sets timeouts. -/
  | injEnWrite (v : Word32)
  /-- OPP_MAP_WRITE (R343). Write of preferred operating points per scene, applied at next installation. -/
  | oppMapWrite (co : Fin 16) (i : Fin 16) (src : WSrc) (v : Word)
  /-- ENC_LEN_WRITE (R373). First non-zero ENC_LEN write of a step latches the output range. -/
  | encLenWrite (co : Fin 16) (src : WSrc) (v : Word)
  /-- ENC_CTRL_WRITE (R389). ENC_CTRL write accepted only while EMPTY. -/
  | encCtrlWrite (co : Fin 16) (src : WSrc) (v : Word)
  /-- REGISTER_WRITE (R9). A write to a register with no behaviour of its own, with reserved-encoding handling. -/
  | registerWrite (path : WPath) (off : Nat) (width : Nat) (v : Word)
  /-- POWER_GOOD (R319). Internal power-good rises and the straps are sampled. -/
  | powerGood (st : Straps)
  /-- CLOCK_CHECK_ATTEMPT (R321). A delay-element step starts compare-mode attempt k, or the device goes dark after 8. -/
  | clockCheckAttempt
  /-- CLOCK_WINDOW_VERDICT (R322). A compare window closes and is judged, passing on to trim, fine or PLL start. -/
  | clockWindowVerdict (count : Option Nat)
  /-- DELAY_MODE_WAIT_END (R327). The delay-mode wait ends and the oscillator is trimmed without verdict. -/
  | delayModeWaitEnd (edge : Bool) (counts : List Nat)
  /-- MANAGEMENT_PLL_LOCK (R321). The management PLL locks and Prompter ROM boot begins. -/
  | managementPllLock
  /-- STANDBY_READ_CODE (R324). SMBus Read Byte 0xF0 returns the last clock-fault code. -/
  | standbyReadCode
  /-- STANDBY_READ_ATTEMPTS (R324). SMBus Read Byte 0xF1 returns the attempt count. -/
  | standbyReadAttempts
  /-- STANDBY_RESTART (R326). SMBus Send Byte 0xF8 reruns the clock check from a dark device. -/
  | standbyRestart
  /-- FREQUENCY_MONITOR_WINDOW (R328). An operating window judges REFCLK, stepping the trim or failing REFCLK. -/
  | frequencyMonitorWindow (count : Nat)
  /-- LOSS_OF_CLOCK (R329). A loss-of-clock or PLL lock detector fires and its domains go to their safe states. -/
  | lossOfClock (k : ClkSrc)
  /-- FIELD_PLL_LOSS (R330). A field PLL loses lock, raising a partition reset and relock attempts. -/
  | fieldPllLoss (f : Fin 72)
  /-- FIELD_PLL_RELOCK_TRY (R330). A 100 us relock try ends in success or, after four, PLL_FAULT. -/
  | fieldPllRelockTry (f : Fin 72) (ok : Bool)
  /-- CLOCK_SWITCH (R331). A field switches clock source through hold, stop, hold and resume. -/
  | clockSwitch (f : Fin 72)
  /-- FIELD_PLL_LOCK (R332). The field PLL reports lock and the switch back begins. -/
  | fieldPllLock (f : Fin 72)
  /-- FREQ_MEAS_GO (R334). Start a frequency measurement of a source. -/
  | freqMeasGo (v : Word32)
  /-- FREQ_MEAS_DONE (R334). The measurement window ends and COUNT or NO_EDGE is recorded. -/
  | freqMeasDone (edges : Nat)
  /-- MODULE_LIMITER_STEP (R338). Every 100 us Prompter moves P_EFF against MOD_LIM. -/
  | moduleLimiterStep (x : ModuleSample)
  /-- HARD_LIMIT (R339). Input above 34 kW over 100 us forces HOLD_MAX in every field. -/
  | hardLimit (watts : Nat)
  /-- POWER_WAVE_START (R341). The sequencer starts the next wave of up to 9 fields. -/
  | powerWaveStart
  /-- POWER_WAVE_RAMP_DONE (R341). A wave's rails reach regulation and its fields zero-fill and lock. -/
  | powerWaveRampDone
  /-- CONTROL_STEP (R345). Every 10 us the Stagehand computes the field's hold count. -/
  | controlStep (f : Fin 72) (p10 : Nat) (t : Nat) (sensors : Fin 5)
  /-- HARD_THRESHOLD_END (R346). After 100 us below 100 C the field returns to its effective point. -/
  | hardThresholdEnd (f : Fin 72)
  /-- THERMAL_TRIP (R346). At 115 C the comparator turns the field off and asserts THERMTRIP_N. -/
  | thermalTrip (f : Fin 72)
  /-- VAMP_STEP (R349). Every 1 us the vamp floor is recomputed and filler work run. -/
  | vampStep (f : Fin 72) (avg : Nat) (natural : Nat) (cap : Nat)
  /-- ENERGY_UPDATE (R351). Energy counters are updated every 100 us. -/
  | energyUpdate (module : Nat) (perField : List Nat)
  /-- INPUT_POWER_FAULT (R337). Input out of range for 50 us puts the module in ghost light. -/
  | inputPowerFault
  /-- PWR_EN_RISE (R435). PWR_EN rises with sufficient input and power-up begins. -/
  | pwrEnRise
  /-- PWR_EN_FALL (R435). PWR_EN low for 1 ms powers off every domain except standby. -/
  | pwrEnFall
  /-- BRINGUP_STEP_COMPLETE (R354). A bring-up step ends and the next begins. -/
  | bringupStepComplete (fd : Findings)
  /-- BRINGUP_STEP_TIMEOUT (R354). A bring-up step exceeds its limit and bring-up fails. -/
  | bringupStepTimeout
  /-- PTP_WAIT_END (R356). The 2 s wait for PTP time ends, deciding quick or full start. -/
  | ptpWaitEnd (ptp : Option Nat)
  /-- BOOT_IMAGE_LOAD (R410). The ROM verifies, measures and hands over a firmware image. -/
  | bootImageLoad (im : BootImage) (backup : BootImage)
  /-- ENCORE_COPY_DONE (R375). The copy to the partner ends and the replay starts. -/
  | encoreCopyDone (x : EncoreCopy)
  /-- ENCORE_REPLAY_END (R376). The replay reaches its end boundary and its digest is computed. -/
  | encoreReplayEnd (co : Fin 16) (trips : Nat) (sameEnd : Bool) (digest : List Byte)
  /-- ENCORE_DIGEST_COMPARE (R376). Both digests are ready and the encore outcome is decided. -/
  | encoreDigestCompare (co : Fin 16)
  /-- REPLAY_TIMEOUT (R376). REPLAY_S expires and the step commits unverified. -/
  | replayTimeout (co : Fin 16)
  /-- REHEARSAL_START (R380). Prompter starts a marked cell's rehearsal once no job needs it. -/
  | rehearsalStart (f : Fin 72)
  /-- REHEARSAL_END (R381). A rehearsal ends; cells pass or are judged dead. -/
  | rehearsalEnd (f : Fin 72) (failed : List (Nat × Nat))
  /-- REHEARSAL_OVERDUE (R382). A mark unrehearsed for 72 hours becomes overdue. -/
  | rehearsalOverdue (i : Fin 256)
  /-- LIVENESS_PROBE (R383). The Stagehand probes every unit of every powered cell every 100 us. -/
  | livenessProbe (c : CellRef) (unit : Fin 13) (ok : Bool)
  /-- CELL_DEATH (R383). A cell is judged dead, stopping its job and calling an understudy or darkening the row. -/
  | cellDeath (f : Fin 72) (row : Fin 16) (pcol : Fin 25)
  /-- UNDERSTUDY_CALL (R384). The spare passes its test and L moves to the dead column. -/
  | understudyCall (f : Fin 72) (row : Fin 16) (ok : Bool)
  /-- ERROR_DATAGRAM (R387). An error record is sent as a UDP datagram. -/
  | errorDatagram (up : Bool)
  /-- CONTEXT_RESET (R392). CO_RESET.CONTEXT stops the company's job and changes CGEN. -/
  | contextReset (co : Fin 16) (src : WSrc) (v : Word)
  /-- RING_CONTEXT_RESET (R393). CO_RESET.CONTEXT with RING_SEL stops one command ring. -/
  | ringContextReset (co : Fin 16) (src : WSrc) (v : Word)
  /-- PARTITION_RESET (R395). CO_RESET.PARTITION resets and zero-fills one company. -/
  | partitionReset (co : Fin 16) (src : WSrc) (v : Word)
  /-- ENGINE_RESET (R394). ENGINE_RESET.GO resets one core or fly engine and runs its check. -/
  | engineReset (f : Fin 72) (v : Word32)
  /-- CHIP_RESET (R396). RESET_CTRL.CHIP resets the module or requests ghost-light exit. -/
  | chipReset (v : Word32)
  /-- CHIP_RESET_COMPLETE (R396). The chip reset ends and CHIP_BUSY clears. -/
  | chipResetComplete
  /-- GHOST (R404). RESET_CTRL.GHOST enters ghost light with cause 5. -/
  | ghost (v : Word32)
  /-- GHOST_EXIT_CONDITION (R405). A waiting chip reset begins when the cause's exit condition comes to hold. -/
  | ghostExitCondition
  /-- RESET_ESCALATION (R397). A reset exceeds its limit and the next level is applied. -/
  | resetEscalation (x : Escalation)
  /-- WDOG_KICK (R398). Prompter firmware kicks the watchdog. -/
  | wdogKick
  /-- WATCHDOG_EXPIRY (R398). Missing kicks reset Prompter, or enter ghost light. -/
  | watchdogExpiry (w : WdogEvent)
  /-- GENERATION_WAIT_END (R400). A generation value becomes 34 ms old and the waiting reset proceeds. -/
  | generationWaitEnd (g : GenScope) (val : BitVec 8)
  /-- TAG_QUARANTINE_END (R402). An abandoned remote tag becomes usable after 34 ms. -/
  | tagQuarantineEnd (tag : BitVec 18)
  /-- DOMAIN_DRAIN_CUT (R403). The drain limit ends and requests still inside a powering-down domain are discarded. -/
  | domainDrainCut (dm : Domain)
  /-- STRATUM_LOW_INPUT_OFF (R406). Input below 40 V for 1 ms turns every stratum domain off. -/
  | stratumLowInputOff
  /-- CONFIG_RECORD_RECOMPUTE (R413). Prompter recomputes measurement register 5 after a listed value changes. -/
  | configRecordRecompute
  /-- GET_VERSION (R415). SPDM GET_VERSION request. -/
  | getVersion (ep : SpdmEndpoint) (q : SpdmReq)
  /-- GET_CAPABILITIES (R415). SPDM GET_CAPABILITIES request. -/
  | getCapabilities (ep : SpdmEndpoint) (q : SpdmReq)
  /-- NEGOTIATE_ALGORITHMS (R415). SPDM NEGOTIATE_ALGORITHMS request. -/
  | negotiateAlgorithms (ep : SpdmEndpoint) (q : SpdmReq)
  /-- GET_DIGESTS (R415). SPDM GET_DIGESTS request. -/
  | getDigests (ep : SpdmEndpoint) (q : SpdmReq)
  /-- GET_CERTIFICATE (R415). SPDM GET_CERTIFICATE request. -/
  | getCertificate (ep : SpdmEndpoint) (q : SpdmReq)
  /-- CHALLENGE (R415). SPDM CHALLENGE request. -/
  | challenge (ep : SpdmEndpoint) (q : SpdmReq)
  /-- GET_MEASUREMENTS (R416). SPDM GET_MEASUREMENTS request answered from a register snapshot. -/
  | getMeasurements (ep : SpdmEndpoint) (q : SpdmReq)
  /-- SNAPSHOT_GO (R422). SNAP_CTRL.GO strobes a snapshot of a counter group. -/
  | snapshotGo (g : Fin 16) (v : Word32)
  /-- SNAPSHOT_COMPLETE (R422). Every slot and the header switch to the new snapshot and BUSY clears. -/
  | snapshotComplete (g : Fin 16)
  /-- CNT_SEL_WRITE (R421). Stage a counter selection for a slot, or discard it. -/
  | cntSelWrite (g : Fin 16) (s : Fin 16) (v : Word)
  /-- WM_SEL_WRITE (R427). Select a watermark notice's level and mark, or discard it. -/
  | wmSelWrite (n : Fin 64) (v : Word)
  /-- WATERMARK_CROSSING (R426). A level first reaches its mark and the notice records it. -/
  | watermarkCrossing (n : NoticeRef)
  /-- WATERMARK_CLEAR (R426). Writing 1 to SEEN clears a notice. -/
  | watermarkClear (n : NoticeRef) (v : Word)
  /-- TELEMETRY_PERIOD (R431). Each PERIOD_MS Prompter snapshots groups and sends a datagram. -/
  | telemetryPeriod (up : Bool)
  /-- TRACE_FRAME (R429). Each 4,096-cycle period a field collects a trace frame or drops it. -/
  | traceFrame (f : Fin 72)
  /-- TRACE_CTRL_WRITE (R430). TRACE_CTRL write starts or stops tracing, or is discarded. -/
  | traceCtrlWrite (f : Fin 72) (v : Word)
  /-- ALERT_RESPONSE (R443). A read of the SMBus Alert Response Address releases ALERT_N. -/
  | alertResponse
  /-- EXTEST (R451). JTAG EXTEST, accepted only while PWR_EN is low. -/
  | extest (shift : BitVec 12)
  /-- IDCODE (R451). JTAG IDCODE selects the identification register. -/
  | idcode
  /-- SAMPLE_PRELOAD (R451). JTAG SAMPLE/PRELOAD of the boundary register. -/
  | samplePreload (shift : BitVec 12)
  /-- BYPASS (R451). JTAG BYPASS. -/
  | bypass
  /-- PORT_TRAINING_DONE (R244). A port's retraining (at most 60 ms) or spare-lane bring-in (at most 2 ms) ends and the port comes up or stays down. -/
  | portTrainingDone (p : Fin 48) (x : Training)
  /-- INPUT_VOLTAGE_CROSSING (R337). The 54 V input crosses a level: into 46-48 V or 58-60 V (event only), up to the 47 V start threshold that a waiting power-up needs, or past the 36 V standby level. -/
  | inputVoltageCrossing (mv : Nat)
  /-- INLET_OUT_OF_RANGE (R347). The coolant inlet temperature goes outside 20-35 C and PWR_EVENTS.INLET is set. -/
  | inletOutOfRange (t : Nat)
  /-- STRATUM_CHANNEL_LOSS (R189). A stratum channel is lost in operation and its field's stratum enters the fault state. -/
  | stratumChannelLoss (f : Fin 72) (ch : Fin 16)
  /-- ENCORE_COPY_BACK_DONE (R376). After a mismatch, copying the replay's output range over the original's ends and the step commits. -/
  | encoreCopyBackDone (co : Fin 16) (data : List Byte)
  /-- RESET_COMPLETE (R391). A context, engine or partition reset finishes within its limit: engines stopped, known-answer check passed or zero-fill done, completion written. -/
  | resetComplete (sc : ResetScope) (ok : Bool)
  /-- VF_ENABLE (R463). SR-IOV enables again a virtual function that an enabled company is bound to, and its window reaches the company's blocks again. -/
  | vfEnable (hp : Fin 4) (n : Fin 17)
deriving DecidableEq, Repr

end Sys2Proof
end

