-- ==== Sys2Proof/Decode.lean ====
section
/-! DEFINITION. Decoding. No row of spec/opcode_table.json gives bits: the module takes its commands as events of its agents and
not as words, so no word of the table spells one. The cores of a cell fetch words all the same: a vector word (R129, R131) and a scalar
word (R140, R141) is the command of its core that stands here. -/

namespace Sys2Proof

/-- The command that a word spells by the bits of spec/opcode_table.json: none, for no row gives bits. -/
def decodeTableWord (_nbits _w : Nat) : Option Instr := none

/-! Vector words (Tables 06-2 and 06-3). -/

/-- The fields of class R. -/
def vrForm (w : Word) : VRForm :=
  ⟨w.extractLsb' 51 5, w.extractLsb' 46 5, w.extractLsb' 41 5, w.extractLsb' 36 5, w.extractLsb' 35 1, w.extractLsb' 32 3,
    w.extractLsb' 31 1, w.extractLsb' 29 2, w.extractLsb' 25 4, w.extractLsb' 22 3, w.extractLsb' 8 14, w.extractLsb' 0 8⟩

/-- The fields of class I. -/
def viForm (w : Word) : VIForm := ⟨w.extractLsb' 51 5, w.extractLsb' 32 19, w.extractLsb' 0 32⟩

/-- The fields of class M. -/
def vmForm (w : Word) : VMForm :=
  ⟨w.extractLsb' 51 5, w.extractLsb' 48 3, w.extractLsb' 36 12, w.extractLsb' 35 1, w.extractLsb' 32 3, w.extractLsb' 28 4,
    w.extractLsb' 16 12, w.extractLsb' 14 2, w.extractLsb' 11 3, w.extractLsb' 6 5, w.extractLsb' 3 3, w.extractLsb' 0 3⟩

/-- The fields of class C. -/
def vcForm (w : Word) : VCForm :=
  ⟨w.extractLsb' 51 5, w.extractLsb' 48 3, w.extractLsb' 45 3, w.extractLsb' 43 2, w.extractLsb' 40 3, w.extractLsb' 37 3,
    w.extractLsb' 32 5, w.extractLsb' 17 15, w.extractLsb' 16 1, w.extractLsb' 0 16⟩

/-- The command of a vector core that a word spells (R129, R131): by its OP. A reserved opcode, 0x00 among them, faults with bad
instruction as a non-zero reserved field does: it is given as a VADD with every reserved bit set. -/
def vectorWord (c : CellRef) (w : Word) : Instr :=
  match (w.extractLsb' 56 8).toNat with
  | 0x10 => .vadd c (vrForm w)
  | 0x11 => .vsub c (vrForm w)
  | 0x12 => .vmul c (vrForm w)
  | 0x13 => .vfma c (vrForm w)
  | 0x14 => .vfnma c (vrForm w)
  | 0x15 => .vmin c (vrForm w)
  | 0x16 => .vmax c (vrForm w)
  | 0x17 => .vdiv c (vrForm w)
  | 0x18 => .vsqrt c (vrForm w)
  | 0x19 => .vrsqrt c (vrForm w)
  | 0x1A => .vexp2 c (vrForm w)
  | 0x1B => .vlog2 c (vrForm w)
  | 0x1C => .vabs c (vrForm w)
  | 0x1D => .vneg c (vrForm w)
  | 0x20 => .vcmp c (vrForm w)
  | 0x21 => .vicmp c (vrForm w)
  | 0x28 => .vrsum c (vrForm w)
  | 0x29 => .vrmax c (vrForm w)
  | 0x2A => .vrmin c (vrForm w)
  | 0x30 => .vcvt c (vrForm w)
  | 0x31 => .vf2i c (vrForm w)
  | 0x32 => .vi2f c (vrForm w)
  | 0x33 => .vqmx c (vrForm w)
  | 0x34 => .vdqmx c (vrForm w)
  | 0x35 => .vsketch c (vrForm w)
  | 0x40 => .viadd c (vrForm w)
  | 0x41 => .visub c (vrForm w)
  | 0x42 => .vimul c (vrForm w)
  | 0x43 => .vand c (vrForm w)
  | 0x44 => .vor c (vrForm w)
  | 0x45 => .vxor c (vrForm w)
  | 0x46 => .vshl c (vrForm w)
  | 0x47 => .vshr c (vrForm w)
  | 0x48 => .vsra c (vrForm w)
  | 0x49 => .vimin c (vrForm w)
  | 0x4A => .vimax c (vrForm w)
  | 0x50 => .vmov c (vrForm w)
  | 0x51 => .vperm c (vrForm w)
  | 0x52 => .vtrans c (vrForm w)
  | 0x53 => .vbcast c (vrForm w)
  | 0x58 => .klogic c (vrForm w)
  | 0x59 => .kpop c (vrForm w)
  | 0x5A => .kfromv c (vrForm w)
  | 0x5B => .vfromk c (vrForm w)
  | 0x54 => .vsplat c (viForm w)
  | 0x60 => .vld c (vmForm w)
  | 0x61 => .vst c (vmForm w)
  | 0x62 => .vstp c (vmForm w)
  | 0x70 => .vsetai c (vcForm w)
  | 0x71 => .vaddai c (vcForm w)
  | 0x72 => .vloop c (vcForm w)
  | 0x73 => .vjmp c (vcForm w)
  | 0x74 => .vbrk c (vcForm w)
  | 0x75 => .vtin c (vcForm w)
  | 0x76 => .vtout c (vcForm w)
  | 0x77 => .vfence c (vcForm w)
  | 0x7F => .vhalt c (vcForm w)
  | _ => .vadd c { vrForm w with rsv := -1 }

/-! Scalar words (Tables 06-8 and 06-9). -/

/-- The fields of form X. -/
def xForm (w : Word32) : XForm :=
  ⟨w.extractLsb' 21 5, w.extractLsb' 16 5, w.extractLsb' 11 5, w.extractLsb' 8 3, w.extractLsb' 0 8⟩

/-- The fields of form I. -/
def iForm (w : Word32) : IForm := ⟨w.extractLsb' 21 5, w.extractLsb' 16 5, w.extractLsb' 0 16⟩

/-- The fields of form B. -/
def bForm (w : Word32) : BForm := ⟨w.extractLsb' 21 5, w.extractLsb' 16 5, w.extractLsb' 0 16⟩

/-- The fields of a FENCE beside its kind. -/
def fenceForm (w : Word32) : FenceForm := ⟨w.extractLsb' 21 5, w.extractLsb' 16 5, w.extractLsb' 2 14⟩

/-- The fields of a SYS instruction beside its FN. -/
def sysForm (w : Word32) : SysForm := ⟨w.extractLsb' 21 5, w.extractLsb' 16 5, w.extractLsb' 11 5, w.extractLsb' 8 3⟩

/-- What a scalar word with a reserved opcode, FENCE kind or SYS FN spells: it faults with bad instruction as an ALU instruction with a
reserved FN does, and is given as one (R140 to R142). -/
def badScalar (c : CellRef) : Instr := .alu c ⟨0, 0, 0, 0, 0xFF⟩

/-- A FENCE by its kind IMM16[1:0]; 3 is reserved. -/
def fenceWord (c : CellRef) (w : Word32) : Instr :=
  match (w.extractLsb' 0 2).toNat with
  | 0 => .fenceRelease c (fenceForm w)
  | 1 => .fenceAcquire c (fenceForm w)
  | 2 => .fullFence c (fenceForm w)
  | _ => badScalar c

/-- A SYS instruction by its FN. -/
def sysWord (c : CellRef) (w : Word32) : Instr :=
  match (w.extractLsb' 0 8).toNat with
  | 0x01 => .csrr c (sysForm w)
  | 0x02 => .csrw c (sysForm w)
  | 0x10 => .sceneack c (sysForm w)
  | 0x20 => .jend c (sysForm w)
  | 0x40 => .seedv c (sysForm w)
  | _ => badScalar c

/-- The command of a scalar core that a word spells (R140, R141): by its OP. -/
def scalarWord (c : CellRef) (w : Word32) : Instr :=
  match (w.extractLsb' 26 6).toNat with
  | 0x01 => .alu c (xForm w)
  | 0x02 => .addi c (iForm w)
  | 0x03 => .andi c (iForm w)
  | 0x04 => .ori c (iForm w)
  | 0x05 => .xori c (iForm w)
  | 0x06 => .shi c (iForm w)
  | 0x07 => .lui c (iForm w)
  | 0x08 => .slti c (iForm w)
  | 0x10 => .lb c (iForm w)
  | 0x11 => .lbu c (iForm w)
  | 0x12 => .lh c (iForm w)
  | 0x13 => .lhu c (iForm w)
  | 0x14 => .lw c (iForm w)
  | 0x15 => .lwu c (iForm w)
  | 0x16 => .ld c (iForm w)
  | 0x18 => .sb c (iForm w)
  | 0x19 => .sh c (iForm w)
  | 0x1A => .sw c (iForm w)
  | 0x1B => .sd c (iForm w)
  | 0x1C => .fld c (xForm w)
  | 0x1D => .fst c (xForm w)
  | 0x1E => .fatom c (xForm w)
  | 0x2F => .jalr c (iForm w)
  | 0x30 => .mcpush c (xForm w)
  | 0x31 => .mcrd c (xForm w)
  | 0x32 => .mcclr c (xForm w)
  | 0x33 => .mcwait c (xForm w)
  | 0x34 => .vstart c (xForm w)
  | 0x35 => .vseta c (xForm w)
  | 0x36 => .vrd c (xForm w)
  | 0x37 => .vclr c (xForm w)
  | 0x38 => .fly c (xForm w)
  | 0x39 => .flywait c (xForm w)
  | 0x3A => .asend c (xForm w)
  | 0x3B => .arecv c (xForm w)
  | 0x3C => .tin c (xForm w)
  | 0x3D => .tout c (xForm w)
  | 0x3E => .waitev c (xForm w)
  | 0x28 => .beq c (bForm w)
  | 0x29 => .bne c (bForm w)
  | 0x2A => .blt c (bForm w)
  | 0x2B => .bge c (bForm w)
  | 0x2C => .bltu c (bForm w)
  | 0x2D => .bgeu c (bForm w)
  | 0x20 => fenceWord c w
  | 0x2E => .jal c (w.extractLsb' 0 26)
  | 0x3F => sysWord c w
  | _ => badScalar c

end Sys2Proof
end

