-- ==== Sys2Proof/Machine/Map.lean ====
section
/-! DEFINITION. Sparse maps in one canonical form: keys strictly rising, no entry equal to the default an
unlisted key reads as. Memory is such a map of bytes (Host.Cell). -/

namespace Sys2Proof.Machine

/-- A sparse map from numbers, as data. -/
abbrev SMap (α : Type) := List (Nat × α)

/-- The value at key `k`: the first entry's, or the default `d`. -/
def mget {α : Type} (d : α) : SMap α → Nat → α
  | [], _ => d
  | (j, v) :: m, k => if j = k then v else mget d m k

/-- Every entry of key `k` taken out. -/
def merase {α : Type} : SMap α → Nat → SMap α
  | [], _ => []
  | (j, v) :: m, k => if j = k then merase m k else (j, v) :: merase m k

/-- An entry put in before the first larger key. -/
def mins {α : Type} : SMap α → Nat → α → SMap α
  | [], k, v => [(k, v)]
  | (j, w) :: m, k, v => if k < j then (k, v) :: (j, w) :: m else (j, w) :: mins m k v

/-- The map with `v` at key `k`; writing the default takes the entry out. -/
def mset {α : Type} [DecidableEq α] (d : α) (m : SMap α) (k : Nat) (v : α) : SMap α :=
  if v = d then merase m k else mins (merase m k) k v

/-- The keys rise strictly. -/
def risingFrom {α : Type} : Option Nat → SMap α → Bool
  | _, [] => true
  | none, (j, _) :: m => risingFrom (some j) m
  | some i, (j, _) :: m => decide (i < j) && risingFrom (some j) m

/-- The canonical form of a sparse map with default `d`. -/
def mwf {α : Type} [DecidableEq α] (d : α) (m : SMap α) : Bool :=
  risingFrom none m && m.all (fun e => decide (e.2 ≠ d))

/-- Bytes by address; an unlisted address reads as zero (R56, R193). -/
abbrev Memory := List Host.Cell

/-- The canonical form of a memory. -/
def Memory.wf (m : Memory) : Bool := mwf (0 : Byte) m

def readByte (m : Memory) (a : Nat) : Byte := mget 0 m a

def writeByte (m : Memory) (a : Nat) (b : Byte) : Memory := mset 0 m a b

/-- `n` bytes from address `a`. -/
def readBytes (m : Memory) : Nat → Nat → List Byte
  | _, 0 => []
  | a, n + 1 => readByte m a :: readBytes m (a + 1) n

/-- Bytes written one after another from address `a`. -/
def writeBytes (m : Memory) : Nat → List Byte → Memory
  | _, [] => m
  | a, b :: bs => writeBytes (writeByte m a b) (a + 1) bs

/-- Zeros in the `n` bytes from `a`: the listed ones go. -/
def zeroBytes (m : Memory) (a n : Nat) : Memory :=
  m.filter (fun e => decide (e.1 < a ∨ a + n ≤ e.1))

/-- A set of numbers held as a rising list. -/
def sadd : List Nat → Nat → List Nat
  | [], k => [k]
  | j :: l, k => if k < j then k :: j :: l else if k = j then j :: l else j :: sadd l k

def sdel (l : List Nat) (k : Nat) : List Nat := l.filter (fun j => decide (j ≠ k))

def shas (l : List Nat) (k : Nat) : Bool := l.any (fun j => decide (j = k))

/-- The set without the numbers from `a` up to but not including `a + n`. -/
def sdelRange (l : List Nat) (a n : Nat) : List Nat := l.filter (fun j => decide (j < a ∨ a + n ≤ j))

end Sys2Proof.Machine
end

