-- ==== Sys2Proof/Machine/Bits.lean ====
section
/-! DEFINITION. Bit fields, sign extension and little-endian bytes (00_scope.md, "Notation and units"), and the
CRC-32 of IEEE 802.3 that plans, images and link frames carry (R165, R245, R293). -/

namespace Sys2Proof.Machine

/-- Bits [hi:lo] as a number. -/
def bits {n : Nat} (w : BitVec n) (hi lo : Nat) : Nat := (w.toNat >>> lo) % 2 ^ (hi + 1 - lo)

/-- Bit `i`. -/
def bit {n : Nat} (w : BitVec n) (i : Nat) : Bool := w.getLsbD i

/-- The ones of bits [hi:lo]. -/
def fieldMask (n hi lo : Nat) : BitVec n := (BitVec.ofNat n (2 ^ (hi + 1 - lo) - 1)) <<< lo

/-- The word with `v` in bits [hi:lo]. -/
def setBits {n : Nat} (w : BitVec n) (hi lo : Nat) (v : Nat) : BitVec n :=
  (w &&& ~~~ (fieldMask n hi lo)) ||| ((BitVec.ofNat n (v % 2 ^ (hi + 1 - lo))) <<< lo)

def ofBool (b : Bool) : Nat := if b then 1 else 0

/-- `v` as `n` little-endian bytes. -/
def toLe (v : Nat) : Nat → List Byte
  | 0 => []
  | n + 1 => BitVec.ofNat 8 v :: toLe (v / 256) n

/-- Little-endian bytes as a number. -/
def ofLe : List Byte → Nat
  | [] => 0
  | b :: bs => b.toNat + 256 * ofLe bs

/-- Big-endian bytes as a number. -/
def ofBe (l : List Byte) : Nat := ofLe l.reverse

/-- `n` bytes of a list from position `a`, with zeros past its end. -/
def slice (l : List Byte) (a n : Nat) : List Byte :=
  let t := (l.drop a).take n
  t ++ List.replicate (n - t.length) 0

/-- The little-endian number in `n` bytes from position `a`. -/
def le (l : List Byte) (a n : Nat) : Nat := ofLe (slice l a n)

/-- The bytes of 64-bit words, little-endian. -/
def wordBytes : List Word → List Byte
  | [] => []
  | w :: ws => toLe w.toNat 8 ++ wordBytes ws

/-- The little-endian 64-bit words of bytes, a last part word filled with zeros. -/
def bytesWords (l : List Byte) : List Word :=
  (List.range ((l.length + 7) / 8)).map (fun i => BitVec.ofNat 64 (le l (8 * i) 8))

/-- `n` low bits of `v`, sign-extended to 64 bits. -/
def sext (n : Nat) (v : Nat) : Word := (BitVec.ofNat n v).signExtend 64

/-- Whether the number is a multiple of `k`. -/
def aligned (a k : Nat) : Bool := decide (a % k = 0)

def ceilDiv (a b : Nat) : Nat := (a + b - 1) / b

/-- Population count of the low `n` bits. -/
def popcount : Nat → Nat → Nat
  | 0, _ => 0
  | n + 1, v => v % 2 + popcount n (v / 2)

/-- Leading zeros of an `n`-bit value. -/
def leadingZeros : Nat → Nat → Nat
  | 0, _ => 0
  | n + 1, v => if v / 2 ^ n % 2 = 1 then 0 else 1 + leadingZeros n v

/-- One bit of the reflected CRC-32 with polynomial 0xEDB88320. -/
def crcBit (c : Word32) : Word32 :=
  if c.getLsbD 0 then (c >>> 1) ^^^ 0xEDB88320#32 else c >>> 1

def crcByte (c : Word32) (b : Byte) : Word32 :=
  let c := c ^^^ b.zeroExtend 32
  crcBit (crcBit (crcBit (crcBit (crcBit (crcBit (crcBit (crcBit c)))))))

/-- CRC-32, IEEE 802.3 polynomial. -/
def crc32 (l : List Byte) : Word32 := ~~~ (l.foldl crcByte 0xFFFFFFFF#32)

end Sys2Proof.Machine
end

