-- ==== Sys2Proof/Machine/Num.lean ====
section
/-! DEFINITION. Numbers of 03_number_formats.md: exact values, the formats of Table 03-1, the four rounding modes
(R72 to R74), the stochastic-rounding generator (R75) and arithmetic on FP32 and BF16 (R70, R71, R83). -/

namespace Sys2Proof.Machine

/-- An exact value: NaN, a signed infinity, or (-1)^neg * m * 2^e (zero keeps its sign). -/
inductive Val where
  | nan
  | inf (neg : Bool)
  | fin (neg : Bool) (m : Nat) (e : Int)
deriving DecidableEq, Repr

/-- Bits of a number: floor(log2 n) + 1, and 0 for 0. -/
def bitLen (n : Nat) : Nat := if n = 0 then 0 else n.log2 + 1

/-- floor(log2 (m * 2^e)) for m not 0. -/
def flog2 (m : Nat) (e : Int) : Int := (m.log2 : Int) + e

/-- Comparison of m1 * 2^e1 with m2 * 2^e2. -/
def magLt (m1 : Nat) (e1 : Int) (m2 : Nat) (e2 : Int) : Bool :=
  if e1 ≤ e2 then decide (m1 < m2 * 2 ^ (e2 - e1).toNat) else decide (m1 * 2 ^ (e1 - e2).toNat < m2)

/-- A floating-point element format: significand bits with the implicit one, smallest normal exponent, whether
subnormals are kept, and the largest finite value. -/
structure FloatFmt where
  p : Nat
  emin : Int
  sub : Bool
  maxM : Nat
  maxE : Int
  ebits : Nat
deriving DecidableEq, Repr

def fp32Fmt : FloatFmt := ⟨24, -126, false, 2 ^ 24 - 1, 104, 8⟩
def bf16Fmt : FloatFmt := ⟨8, -126, false, 255, 120, 8⟩

/-- The formats by format code (Tables 03-1, 03-8): FP32, BF16, E4M3, E5M2, E3M2, E2M3, E2M1. -/
def fmtOf (code : Nat) : FloatFmt :=
  match code with
  | 0 => fp32Fmt
  | 1 => bf16Fmt
  | 2 => ⟨4, -6, true, 7, 6, 4⟩
  | 3 => ⟨3, -14, true, 7, 13, 5⟩
  | 4 => ⟨3, -2, true, 7, 2, 3⟩
  | 5 => ⟨4, 0, true, 15, -1, 2⟩
  | _ => ⟨2, 0, true, 3, 1, 2⟩

/-- Element bits of a format code (Table 03-1). -/
def elemBits (code : Nat) : Nat := ([32, 16, 8, 8, 6, 6, 4, 1, 2][code]?).getD 0

/-- Mantissa-field width of a format code (R81). -/
def mantBits (code : Nat) : Nat := ([23, 7, 3, 2, 2, 3, 1, 0, 0][code]?).getD 0

/-- emax_elem of R78. -/
def emaxElem (code : Nat) : Int := ([127, 127, 8, 15, 4, 2, 2][code]?).getD 0

/-- The sixteen most significant of `d` discarded bits (R72, SR). -/
def discardTop (rem d : Nat) : Nat := if 16 ≤ d then rem >>> (d - 16) else rem <<< (16 - d)

/-- The rounding of R72 on the magnitude m * 2^e; `sticky`: a non-zero part lies below m's last bit. The result is
a multiple of 2^q, as (m', q). Modes: 0 RNE, 1 RO, 2 RTZ, 3 SR. -/
def roundMag (f : FloatFmt) (mode : Nat) (draw : Nat) (m : Nat) (e : Int) (sticky : Bool) : Nat × Int :=
  let q0 := flog2 m e - ((f.p : Int) - 1)
  let q := if f.sub && decide (q0 < f.emin - ((f.p : Int) - 1)) then f.emin - ((f.p : Int) - 1) else q0
  if q ≤ e then (m * 2 ^ (e - q).toNat, q)
  else
    let d := (q - e).toNat
    let top := m >>> d
    let rem := m % 2 ^ d
    let half := 2 ^ (d - 1)
    let up :=
      match mode with
      | 0 => decide (half < rem) || (decide (rem = half) && (sticky || decide (top % 2 = 1)))
      | 1 => (decide (rem ≠ 0) || sticky) && decide (top % 2 = 0)
      | 2 => false
      | _ => decide (2 ^ 16 ≤ discardTop rem d + draw)
    (if up then top + 1 else top, q)

/-- What a rounding gives before it is coded: the format's overflow result, or a finite value. -/
inductive Rounded where
  | big (neg : Bool)
  | fin (neg : Bool) (m : Nat) (q : Int)
deriving DecidableEq, Repr

/-- Rounding with overflow and the flush of R70, R73 and R74. -/
def roundFin (f : FloatFmt) (mode draw : Nat) (neg : Bool) (m : Nat) (e : Int) (sticky : Bool) : Rounded :=
  if m = 0 then .fin neg 0 0
  else
    let r := roundMag f mode draw m e sticky
    if r.1 = 0 then .fin neg 0 0
    else if magLt f.maxM f.maxE r.1 r.2 then
      (if mode = 2 then .fin neg f.maxM f.maxE else .big neg)
    else if !f.sub && decide (flog2 r.1 r.2 < f.emin) then .fin neg 0 0
    else .fin neg r.1 r.2

/-- The code of a finite value of the format: sign, exponent field, mantissa field. -/
def codeFin (f : FloatFmt) (neg : Bool) (m : Nat) (q : Int) : Nat :=
  let mb := f.p - 1
  let s := ofBool neg * 2 ^ (f.ebits + mb)
  if m = 0 then s
  else
    let k := flog2 m q
    if k < f.emin then s + m * 2 ^ (q - (f.emin - (mb : Int))).toNat / 2 ^ ((f.emin - (mb : Int)) - q).toNat
    else
      let sig := if q ≤ k - (mb : Int) then m >>> ((k - (mb : Int)) - q).toNat else m <<< (q - (k - (mb : Int))).toNat
      s + (k - f.emin + 1).toNat * 2 ^ mb + (sig - 2 ^ mb)

/-- The FP32 code of an exact value rounded once. -/
def toFp32 (mode draw : Nat) (v : Val) (sticky : Bool) : Word32 :=
  match v with
  | .nan => 0x7FC00000
  | .inf n => if n then 0xFF800000 else 0x7F800000
  | .fin n m e =>
    match roundFin fp32Fmt mode draw n m e sticky with
    | .big n => if n then 0xFF800000 else 0x7F800000
    | .fin n m q => BitVec.ofNat 32 (codeFin fp32Fmt n m q)

/-- The BF16 code of an exact value rounded once. -/
def toBf16 (mode draw : Nat) (v : Val) (sticky : Bool) : Half :=
  match v with
  | .nan => 0x7FC0
  | .inf n => if n then 0xFF80 else 0x7F80
  | .fin n m e =>
    match roundFin bf16Fmt mode draw n m e sticky with
    | .big n => if n then 0xFF80 else 0x7F80
    | .fin n m q => BitVec.ofNat 16 (codeFin bf16Fmt n m q)

/-- The value of an FP32 code, with the flush of R70. -/
def ofFp32 (w : Word32) : Val :=
  let n := bit w 31
  let e := bits w 30 23
  let m := bits w 22 0
  if e = 255 then (if m = 0 then .inf n else .nan)
  else if e = 0 then .fin n 0 0
  else .fin n (2 ^ 23 + m) ((e : Int) - 150)

/-- The value of a BF16 code. -/
def ofBf16 (h : Half) : Val := ofFp32 (BitVec.ofNat 32 (h.toNat * 2 ^ 16))

/-- The value of an element code without its scale (R68, R69, Tables 03-5 to 03-7). -/
def elemVal (code : Nat) (x : Nat) : Val :=
  match code with
  | 0 => ofFp32 (BitVec.ofNat 32 x)
  | 1 => ofBf16 (BitVec.ofNat 16 x)
  | 7 => .fin (decide (x % 2 = 1)) 1 0
  | 8 => match x % 4 with
    | 0 => .fin false 0 0
    | 1 => .fin false 1 0
    | 3 => .fin true 1 0
    | _ => .nan
  | _ =>
    let f := fmtOf code
    let mb := f.p - 1
    let n := decide (x / 2 ^ (f.ebits + mb) % 2 = 1)
    let e := x / 2 ^ mb % 2 ^ f.ebits
    let m := x % 2 ^ mb
    if code = 2 ∧ e = 15 ∧ m = 7 then .nan
    else if code = 3 ∧ e = 31 then (if m = 0 then .inf n else .nan)
    else if e = 0 then .fin n m (f.emin - (mb : Int))
    else .fin n (2 ^ mb + m) ((e : Int) - 1 + f.emin - (mb : Int))

/-- One step of the stochastic-rounding generator (R75). -/
def srStep (x : Word32) : Word32 :=
  let x := x ^^^ (x <<< 13)
  let x := x ^^^ (x >>> 17)
  x ^^^ (x <<< 5)

/-- A draw when the mode is SR: the drawn number and the new state (R75). -/
def srDraw (mode : Nat) (x : Word32) : Nat × Word32 :=
  if mode = 3 then let y := srStep x; (bits y 31 16, y) else (0, x)

/-- The stored form of a seed (R75). -/
def srSeed (x : Word32) : Word32 := if x = 0 then 1 else x

/-! Exact arithmetic. -/

def Val.neg : Val → Val
  | .nan => .nan
  | .inf n => .inf (!n)
  | .fin n m e => .fin (!n) m e

/-- The integer a value holds at exponent q ≤ its own. -/
def intAt (n : Bool) (m : Nat) (e q : Int) : Int :=
  let x := (m * 2 ^ (e - q).toNat : Nat)
  if n then -(x : Int) else (x : Int)

/-- Exact sum (R70, R83): an exact zero is +0 unless both operands are zeros of one sign. -/
def Val.add : Val → Val → Val
  | .nan, _ => .nan
  | _, .nan => .nan
  | .inf a, .inf b => if a = b then .inf a else .nan
  | .inf a, _ => .inf a
  | _, .inf b => .inf b
  | .fin a m e, .fin b k g =>
    if m = 0 ∧ k = 0 then .fin (a && b) 0 0
    else if m = 0 then .fin b k g
    else if k = 0 then .fin a m e
    else
      let q := if e ≤ g then e else g
      let x := intAt a m e q + intAt b k g q
      .fin (decide (x < 0)) x.natAbs q

/-- Exact product. -/
def Val.mul : Val → Val → Val
  | .nan, _ => .nan
  | _, .nan => .nan
  | .inf a, .inf b => .inf (a != b)
  | .inf a, .fin b m _ => if m = 0 then .nan else .inf (a != b)
  | .fin a m _, .inf b => if m = 0 then .nan else .inf (a != b)
  | .fin a m e, .fin b k g => .fin (a != b) (m * k) (if m * k = 0 then 0 else e + g)

/-- Multiplication by a power of two. -/
def Val.scale (k : Int) : Val → Val
  | .fin n m e => .fin n m (if m = 0 then 0 else e + k)
  | v => v

/-- A quotient to 64 bits and more, and whether a remainder lies below (R83). -/
def Val.div : Val → Val → Val × Bool
  | .nan, _ => (.nan, false)
  | _, .nan => (.nan, false)
  | .inf _, .inf _ => (.nan, false)
  | .inf a, .fin b _ _ => (.inf (a != b), false)
  | .fin a _ _, .inf b => (.fin (a != b) 0 0, false)
  | .fin a m e, .fin b k g =>
    if k = 0 then (if m = 0 then .nan else .inf (a != b), false)
    else if m = 0 then (.fin (a != b) 0 0, false)
    else
      let sh := 64 + bitLen k
      (.fin (a != b) (m * 2 ^ sh / k) (e - g - (sh : Int)), decide (m * 2 ^ sh % k ≠ 0))

/-- floor(sqrt n) from bit `k` down. -/
def isqrtFrom (n : Nat) : Nat → Nat → Nat
  | 0, r => r
  | k + 1, r =>
    let t := r + 2 ^ k
    isqrtFrom n k (if t * t ≤ n then t else r)

def isqrt (n : Nat) : Nat := isqrtFrom n (bitLen n / 2 + 1) 0

/-- A square root to 64 bits and more, and whether it is inexact (R83). -/
def Val.sqrt : Val → Val × Bool
  | .nan => (.nan, false)
  | .inf n => (if n then .nan else .inf false, false)
  | .fin n m e =>
    if m = 0 then (.fin n 0 0, false)
    else if n then (.nan, false)
    else
      let odd := e % 2 ≠ 0
      let m1 := if odd then 2 * m else m
      let e1 := if odd then e - 1 else e
      let x := m1 * 2 ^ 128
      let r := isqrt x
      (.fin false r (e1 / 2 - 64), decide (r * r ≠ x))

/-- A reciprocal square root to 64 bits and more, and whether it is inexact (R83). -/
def Val.rsqrt : Val → Val × Bool
  | .nan => (.nan, false)
  | .inf n => (if n then .nan else .fin false 0 0, false)
  | .fin n m e =>
    if m = 0 then (.inf n, false)
    else if n then (.nan, false)
    else
      let odd := e % 2 ≠ 0
      let m1 := if odd then 2 * m else m
      let e1 := if odd then e - 1 else e
      let k := bitLen m1 + 64
      let r := isqrt (2 ^ (2 * k) / m1)
      (.fin false r (-(e1 / 2) - (k : Int)), decide (r * r * m1 ≠ 2 ^ (2 * k)))

/-- Whether one value is below another; not asked of NaN. -/
def Val.lt : Val → Val → Bool
  | .inf a, .inf b => a && !b
  | .inf a, .fin _ _ _ => a
  | .fin _ _ _, .inf b => !b
  | .fin a m e, .fin b k g =>
    if m = 0 ∧ k = 0 then false
    else if m = 0 then !b
    else if k = 0 then a
    else if a then (if b then magLt k g m e else true)
    else (if b then false else magLt m e k g)
  | _, _ => false

def Val.isNan : Val → Bool
  | .nan => true
  | _ => false

def Val.isZero : Val → Bool
  | .fin _ 0 _ => true
  | _ => false

def Val.isNeg : Val → Bool
  | .inf n => n
  | .fin n _ _ => n
  | .nan => false

/-- Minimum: NaN wins; of two zeros the negative one (Table 03-12). -/
def Val.min (a b : Val) : Val :=
  if a.isNan || b.isNan then .nan
  else if a.isZero && b.isZero then (if a.isNeg then a else b)
  else if b.lt a then b else a

/-- Maximum: NaN wins; of two zeros the positive one (Table 03-12). -/
def Val.max (a b : Val) : Val :=
  if a.isNan || b.isNan then .nan
  else if a.isZero && b.isZero then (if a.isNeg then b else a)
  else if a.lt b then b else a

/-- The integer part of a magnitude, rounded in a mode (R72), with unbounded exponent. -/
def roundInt (mode draw : Nat) (m : Nat) (e : Int) : Nat :=
  if 0 ≤ e then m * 2 ^ e.toNat
  else
    let d := (-e).toNat
    let top := m >>> d
    let rem := m % 2 ^ d
    let half := 2 ^ (d - 1)
    let up :=
      match mode with
      | 0 => decide (half < rem) || (decide (rem = half) && decide (top % 2 = 1))
      | 1 => decide (rem ≠ 0) && decide (top % 2 = 0)
      | 2 => false
      | _ => decide (2 ^ 16 ≤ discardTop rem d + draw)
    if up then top + 1 else top

/-! Base-2 exponential and logarithm in fixed point, to 64 leading bits with the rest below sticky. Log entry 6. -/

/-- Product of the constants 2^(2^-i), in 2^-128 units, for the set bits of a 60-bit fraction, from bit `i` down:
the square root of the constant before. -/
def exp2Bits (frac : Nat) : Nat → Nat → Nat → Nat
  | 0, _, acc => acc
  | n + 1, c, acc =>
    let c1 := isqrt (c * 2 ^ 128)
    exp2Bits frac n c1 (if frac / 2 ^ n % 2 = 1 then acc * c1 / 2 ^ 128 else acc)

/-- 2^(frac / 2^n) in 2^-128 units. -/
def exp2Frac (frac n : Nat) : Nat := exp2Bits frac n (2 ^ 129) (2 ^ 128)

/-- 2^x for a value, to 64 bits and more. -/
def Val.exp2 : Val → Val × Bool
  | .nan => (.nan, false)
  | .inf n => (if n then .fin false 0 0 else .inf false, false)
  | .fin n m e =>
    if m = 0 then (.fin false 1 0, false)
    else if 12 < flog2 m e then (if n then .fin false 1 (-1000) else .fin false 1 1000, true)
    else if flog2 m e < -60 then
      (if n then (.fin false (2 ^ 80 - 1) (-80), true) else (.fin false (2 ^ 80) (-80), true))
    else
      let sh : Nat := 150
      let t := if 0 ≤ e + (sh : Int) then m * 2 ^ (e + (sh : Int)).toNat else m / 2 ^ (-(e + (sh : Int))).toNat
      let i := t / 2 ^ sh
      let fr := t % 2 ^ sh
      if fr = 0 then (.fin false 1 (if n then -(i : Int) else i), false)
      else if n then (.fin false (exp2Frac (2 ^ sh - fr) sh) (-(i : Int) - 1 - 128), true)
      else (.fin false (exp2Frac fr sh) ((i : Int) - 128), true)

/-- Bits of log2 of x in [1, 2), in 2^-128 units, by repeated squaring. -/
def log2Bits : Nat → Nat → Nat → Nat
  | 0, _, acc => acc
  | n + 1, x, acc =>
    let y := x * x / 2 ^ 128
    if 2 ^ 129 ≤ y then log2Bits n (y / 2) (2 * acc + 1) else log2Bits n y (2 * acc)

/-- log2 of a value, to 64 bits and more. -/
def Val.log2 : Val → Val × Bool
  | .nan => (.nan, false)
  | .inf n => (if n then .nan else .inf false, false)
  | .fin n m e =>
    if m = 0 then (.inf true, false)
    else if n then (.nan, false)
    else
      let k := m.log2
      let i := (k : Int) + e
      if m = 2 ^ k then (.fin (decide (i < 0)) i.natAbs 0, false)
      else
        let fr := log2Bits 120 (m * 2 ^ 128 / 2 ^ k) 0
        let x := i * 2 ^ 120 + (fr : Int)
        if 0 ≤ x then (.fin false x.natAbs (-120), true) else (.fin true (x.natAbs - 1) (-120), true)

end Sys2Proof.Machine
end

