-- ==== Sys2Proof/Machine/CellState.lean ====
section
/-! DEFINITION. The state of one cell (Table 02-1): scalar core, six matrix cores, vector core, fly engine, aside
port, rigging node, the nine memories, and what waits at the cell's mesh router. Plain data. -/

namespace Sys2Proof.Machine

/-- The generations a request carries (R399): device, company and engine. -/
structure Gens where
  dgen : Nat
  cgen : Nat
  egen : Nat
deriving DecidableEq, Repr

/-- What a fabric request does at its home: FLD, FST, FATOM with its operation and compare value (R144), a fly read of
`n` bytes, a fly write of bytes with the poisoned 8-byte words among them (R191, R201). -/
inductive FabOp where
  | load
  | store (v : Word)
  | atomic (op : Nat) (v : Word) (cmp : Word)
  | read (n : Nat)
  | write (bytes : List Byte) (bad : List Nat)
deriving DecidableEq, Repr

/-- Who a request belongs to: a scalar core's access or a fly engine's request, by cell; a request that came over
Shedin, by source device, tag, class and the KIND of its packet (Table 11-4). -/
inductive Owner where
  | scalar (f l : Nat) (id : Nat)
  | fly (f l : Nat) (id : Nat)
  | remote (dev tag : Nat) (bulk : Bool) (kind : Nat)
deriving DecidableEq, Repr

/-- A fabric request (R24, R144, R201): its owner, company, address, operation, generations and ledger (R199). -/
structure Req where
  owner : Owner
  co : Nat
  addr : Word
  op : FabOp
  gens : Gens
  ledger : Option Nat
deriving DecidableEq, Repr

/-- The reply to a request: status of Table 09-3, data bytes, poisoned 8-byte words among them. -/
structure Reply where
  owner : Owner
  status : Nat
  bytes : List Byte
  bad : List Nat
  gens : Gens
deriving DecidableEq, Repr

/-- What a mesh packet carries (Table 09-1). -/
inductive Body where
  | req (r : Req)
  | rep (r : Reply)
  | aside (chan : Nat) (words : List Word) (bad : List Nat) (sf sl schan : Nat) (co cgen : Nat)
  | refusal (chan : Nat) (cgen : Nat)
deriving DecidableEq, Repr

/-- Where a mesh packet ends (R212 to R215): a cell, a field's stratum switch, a host or an optical edge block. -/
inductive Dest where
  | cell (f l : Nat)
  | strat (f : Nat)
  | host (p : Nat)
  | optical (p : Nat)
deriving DecidableEq, Repr

/-- A mesh packet at a router output: plane, channel, length in flits, target router (R206, R207, R209). -/
structure Packet where
  reply : Bool
  control : Bool
  flits : Nat
  mx : Nat
  my : Nat
  dest : Dest
  co : Nat
  body : Body
deriving DecidableEq, Repr

/-- An outstanding FLD, FST or FATOM of a scalar core (R229). `kept`: it ended unreachable and waits for
RESUME (R273); `kind`: 0 FLD, 1 FST, 2 FATOM. -/
structure FabAcc where
  id : Nat
  kind : Nat
  pc : Nat
  rd : Nat
  nf : Bool
  acq : Bool
  addr : Word
  op : FabOp
  kept : Bool
deriving DecidableEq, Repr

/-- A gather-buffer entry: target unit and row, bytes, byte-valid mask (R51); `ecc`: 0, or 1 where one of its words holds a
correctable error, 2 where an uncorrectable one (Table 17-1). -/
structure GatherEntry where
  unit : Nat
  row : Nat
  data : List Byte
  valid : Nat
  ecc : Nat
deriving DecidableEq, Repr

/-- A fence or an acquire access that later instructions wait for (Tables 10-2, R231): the accesses it awaits, and
whom it holds: 0 release, 1 acquire, 2 all. -/
structure Barrier where
  ids : List Nat
  kind : Nat
deriving DecidableEq, Repr

/-- What a scalar core does: stopped, running, or waiting inside the instruction at PC. -/
inductive ScalarRun where
  | stopped
  | running
  | waiting
deriving DecidableEq, Repr

/-- The scalar core (R139, R152, R229). `asleep`: the instruction it waits in, by opcode number; `job`: the
running job started it; `acked`, `ended`: it acknowledged the scene change, executed JEND (R169). -/
structure Scalar where
  x : SMap Word
  pc : Nat
  run : ScalarRun
  asleep : Nat
  events : Word
  fstat : Nat
  astat : Nat
  alen : Nat
  scene : Nat
  gather : List GatherEntry
  outst : List FabAcc
  nextId : Nat
  barriers : List Barrier
  job : Bool
  acked : Bool
  ended : Bool
  released : Bool
  egen : Nat
deriving DecidableEq, Repr

/-- A checksum value of R104: an exact dyadic number of 64 significant bits, or not finite. -/
abbrev Line := Val

/-- The four sets of checksum lines: row and column references and bounds, keyed acc*64 + kind*16 + index, kind 0
cr, 1 cc, 2 tr, 3 tc (R85, R104). -/
abbrev Lines := SMap Line

/-- A begun matrix command that has not been counted in COMPLETED: its words; whether it is an array (0), transfer
(1) or control (2) command; `skipped` under R96; `done`: completed, awaiting earlier ones (R93); `fc`: the
fault code it ends with when its turn comes (R103), 0 for none; `keep`: a PREVIEW's outcome (R125); `tile`, `lines`: the
result of an MMA and its checksum lines, which its own end checks (R105). -/
structure Begun where
  cmd : Word128
  unitKind : Nat
  skipped : Bool
  done : Bool
  fc : Nat
  keep : Bool
  tile : List Word32
  lines : List Line
deriving DecidableEq, Repr

/-- A matrix core (R85). -/
structure Matrix where
  acc : SMap Word32
  lines : Lines
  queue : List Word128
  begun : List Begun
  pmask : Word
  sr : Word32
  srInit : Word32
  fault : Nat
  suspect : Nat
  completed : Nat
  accepted : Nat
  accParity : Nat
  egen : Nat
deriving DecidableEq, Repr

/-- The vector core (R126). `waiting`: the opcode of the VTIN or VTOUT it waits in, 0 for none; `held`: that one was issued after its
cell's acknowledgement and waits for the release (R173). -/
structure Vec where
  v : SMap Word32
  k : SMap Word
  a : SMap Half
  pc : Nat
  sr : Word32
  srInit : Word32
  fault : Nat
  running : Bool
  waiting : Nat
  held : Bool
  egen : Nat
deriving DecidableEq, Repr

/-- A request of a fly transfer that is outstanding or kept for reissue (R201, R203): the far-end read or write, the
near rows it moves where it has any (`hasNear`), and where it lies in the transfer. -/
structure FlyReq where
  id : Nat
  tag : Nat
  isRead : Bool
  addr : Word
  op : FabOp
  dst : Word
  hasNear : Bool
  kept : Bool
  toDev : Nat
  ledger : Option Nat
deriving DecidableEq, Repr

/-- A fly transfer (R196, R197, R203): its descriptor, the next line and row to issue, rows written, whether it has
ended, the first failure's KIND and CODE, whether poisoned data was met. -/
structure Transfer where
  tag : Nat
  desc : List Byte
  line : Nat
  row : Nat
  rowsDone : Nat
  ended : Bool
  kind : Nat
  code : Nat
  poisoned : Bool
  phase : Nat
  total : Nat
  meta_ : List Byte
  order : Nat
deriving DecidableEq, Repr

/-- The fly engine (R196 to R204); `lastIn`: what it did last was to serve an inbound request (R212). -/
structure Fly where
  transfers : List Transfer
  reqs : List FlyReq
  words : SMap Word
  nextId : Nat
  rr : Nat
  lastIn : Bool
  egen : Nat
deriving DecidableEq, Repr

/-- The receive queue of one incoming aside channel: HEAD and the lengths of the messages queued (R222). -/
structure AsideQ where
  head : Nat
  lens : List Nat
deriving DecidableEq, Repr

/-- A rigging token: 32 bytes and its poison mark; `ecc`: 0, or 1 where a word of its queue entry holds a correctable error,
2 where an uncorrectable one (R154). -/
structure Token where
  bytes : List Byte
  bad : Bool
  ecc : Nat
deriving DecidableEq, Repr

/-- The rigging node (R155, R159, R163, R172): token queues by queue number, credits spent per output and receiving
queue, credits owed back, tokens in a seam per input, merges' last input, stopped steering units, the two plan
banks (plan and aside map), the counts of R176; of each output, twice the field's slot count (plus 1) when it last had
its slot, plus 1 where it sent; the last sample record; how many of the tokens that come next over a link or seam have a word's parity bad (R154). -/
structure Rig where
  queues : SMap (List Token)
  spent : SMap Nat
  owed : SMap Nat
  seam : SMap (List (Nat × Token))
  mergeB : List Nat
  stopped : List Nat
  active : Memory
  staged : Memory
  blocked : Nat
  sent : Nat
  last : SMap Nat
  record : Word
  linkBad : Nat
deriving DecidableEq, Repr

/-- What a cell tells the logic around it in a step: events for its counters (KIND, code, SUB, how many; Table 20-1), a
corrected or uncorrectable word of memory (R58, R59) or of a token queue (R154), a crossbar or an accumulator parity error (Table 17-1), a check trip (R105), a job fault (R151), a job end (R150), an
acknowledgement (R169), an entry released by a queue (R159), a fabric access by its number (R144) or an aside with
its channel and words (R148) that leave the scalar core. -/
inductive Note where
  | count (kind code sub n : Nat)
  | ecc (word : Nat) (corrected : Bool)
  | token (corrected : Bool)
  | xbar (corrected : Bool)
  | accum (unit : Nat)
  | trip (u acc : Nat)
  | fault (code pc : Nat)
  | ended (status : Nat)
  | ack
  | freed (q : Nat)
  | fab (id : Nat)
  | aside (chan : Nat) (words : List Word)
deriving DecidableEq, Repr

/-- A cell. Memory, poison and latent marks are keyed unit * 2^18 + byte offset (marks by 8-byte word); `wbacks` are
corrected words awaiting write-back (R60); `inbound` are requests at the fly engine (R212), `asides`
messages at the delivery port, `inbox` replies and refusals that reached the cell's router. -/
structure Cell where
  sc : Scalar
  mats : SMap Matrix
  vec : Vec
  fly : Fly
  asideQ : SMap AsideQ
  asideGather : List GatherEntry
  rig : Rig
  mem : Memory
  poison : List Nat
  latent : List Nat
  wbacks : List Nat
  xbarParity : Nat
  inbound : List Req
  asides : List Body
  replies : List Reply
  refusals : List Body
  notes : List Note
deriving DecidableEq, Repr

def Scalar.zero : Scalar :=
  ⟨[], 0, .stopped, 0, 0, 0, 0, 0, 0, [], [], 0, [], false, false, false, false, 0⟩

def Matrix.zero : Matrix := ⟨[], [], [], [], 0, 1, 1, 0, 0, 0, 0, 0, 0⟩

def Vec.zero : Vec := ⟨[], [], [], 0, 1, 1, 0, false, 0, false, 0⟩

def Fly.zero : Fly := ⟨[], [], [], 0, 0, false, 0⟩

def AsideQ.zero : AsideQ := ⟨0, []⟩

def Rig.zero : Rig := ⟨[], [], [], [], [], [], [], [], 0, 0, [], 0, 0⟩

/-- A cell as its field's power-up leaves it: zero memories with clean ECC (R56), every engine in its reset state
(R86, R127, R139, R75). -/
def Cell.zero : Cell :=
  ⟨.zero, [], .zero, .zero, [], [], .zero, [], [], [], [], 0, [], [], [], [], []⟩

/-- Matrix core `u` of a cell. -/
def Cell.mat (c : Cell) (u : Nat) : Matrix := mget .zero c.mats u

def Cell.setMat (c : Cell) (u : Nat) (m : Matrix) : Cell := { c with mats := mset .zero c.mats u m }

/-- What a cell's engine knows of the module around it: its own coordinates, its device number (R26), the register
fields of its field, the current scene number, its cycle count, its company; whether it runs at all (its field powered, clocked, its job not held); whether the company's
scene change has requested its acknowledgement (R169). -/
structure Env where
  field : Nat
  lcell : Nat
  device : Nat
  cycle : Nat
  matrixCtrl : Word
  co : Nat
  hasCo : Bool
  runs : Bool
  sceneReq : Bool
deriving DecidableEq, Repr

end Sys2Proof.Machine
end

