-- ==== Sys2Proof/Machine/Rig.lean ====
section
/-! DEFINITION. The rigging node (R154 to R166): its plan, token queues, stream ports and steering units. -/

namespace Sys2Proof.Machine

/-- A byte of the active plan (Table 07-4). -/
def planByte (g : Rig) (o : Nat) : Nat := (readByte g.active o).toNat

/-- Entries of a token queue (Table 07-1). -/
def queueDepth : Nat := 16

def Rig.queue (g : Rig) (q : Nat) : List Token := mget [] g.queues q

/-- A token as its queue gives it (R154): an uncorrectable word of its entry marks it poisoned. -/
def Token.out (t : Token) : Token := ⟨t.bytes, t.bad || decide (2 ≤ t.ecc), 0⟩

/-- The head of a queue, and what reading it tells (R154, Table 17-1). -/
def Rig.head (g : Rig) (q : Nat) : Option Token := ((g.queue q).head?).map Token.out

def Rig.headNotes (g : Rig) (q : Nat) : List Note :=
  match g.queue q with
  | t :: _ => if t.ecc = 0 then [] else [.token (decide (t.ecc = 1))]
  | [] => []

def Rig.put (g : Rig) (q : Nat) (t : Token) : Rig := { g with queues := mset [] g.queues q (g.queue q ++ [t]) }

def Rig.drop (g : Rig) (q : Nat) : Rig := { g with queues := mset [] g.queues q (g.queue q).tail }

def Rig.hasRoom (g : Rig) (q : Nat) : Bool := decide ((g.queue q).length < queueDepth)

/-- The queue that owns slot `t` of link output `o` (OUTSLOT, Table 07-5). -/
def Rig.slotOwner (g : Rig) (o t : Nat) : Option Nat :=
  let b := planByte g (0x80 + o * 16 + t)
  if 128 ≤ b then some (b % 128) else none

/-- The queue that a token arriving on input `i` in slot `t` enters (INMAP, Table 07-5). -/
def Rig.slotQueue (g : Rig) (i t : Nat) : Option Nat :=
  let b := planByte g (0x40 + i * 16 + t)
  if 128 ≤ b then some (i * 16 + b % 16) else none

/-- The queue a stream port is bound to in a direction (SPORT at 0x0C0, VPORT at 0x0D0; Table 07-5). -/
def Rig.port (g : Rig) (base p : Nat) (output : Bool) : Option Nat :=
  let w := planByte g (base + 2 * p) + 256 * planByte g (base + 2 * p + 1)
  if 32768 ≤ w ∧ (w / 16384 % 2 = 1) = (output = true) then some (w % 128) else none

/-- What taking a token from a stream port gives (R156): unbound, an empty queue, or the head token. -/
inductive PortIn where
  | unbound
  | empty
  | token (t : Token) (q : Nat)
deriving DecidableEq, Repr

def Rig.portIn (g : Rig) (base p : Nat) : PortIn :=
  match g.port base p false with
  | none => .unbound
  | some q =>
    match g.head q with
    | none => .empty
    | some t => .token t q

/-- What sending on a stream port meets (R156): unbound, a full queue, or the queue. -/
inductive PortOut where
  | unbound
  | full
  | queue (q : Nat)
deriving DecidableEq, Repr

def Rig.portOut (g : Rig) (base p : Nat) : PortOut :=
  match g.port base p true with
  | none => .unbound
  | some q => if g.hasRoom q then .queue q else .full

/-- A token taken out of a queue of the cell: a queue of a link input owes its sender a credit (R159). -/
def Cell.takeToken (c : Cell) (q : Nat) : Cell :=
  { c with rig := c.rig.drop q, notes := c.notes ++ c.rig.headNotes q ++ (if q < 64 then [.freed q] else []) }

/-- A steering unit's plan entry (STEER, Table 07-5). -/
structure Steer where
  kind : Nat
  invert : Bool
  a : Nat
  b : Nat
  c : Nat
  d0 : Nat
  d1 : Nat
  condBit : Nat
deriving DecidableEq, Repr

def Rig.steer (g : Rig) (u : Nat) : Steer :=
  let o := 0x100 + 16 * u
  let k := planByte g o
  ⟨k % 8, decide (k / 8 % 2 = 1), planByte g (o + 1) % 128, planByte g (o + 2) % 128, planByte g (o + 3) % 128,
    planByte g (o + 4), planByte g (o + 5), planByte g (o + 6)⟩

/-- Whether a destination has room: the sink always has (R163). -/
def Rig.destRoom (g : Rig) (d : Nat) : Bool := decide (128 ≤ d) || g.hasRoom (64 + d % 16)

/-- A token sent to a destination; one sent to the sink is counted (R163, R177). -/
def Cell.toDest (c : Cell) (d : Nat) (t : Token) : Cell :=
  if 128 ≤ d then { c with notes := c.notes ++ [.count 5 8 0 1] }
  else { c with rig := c.rig.put (64 + d % 16) t }

/-- The condition of a firing (R162). -/
def steerCond (s : Steer) (t : Token) : Bool :=
  bit ((t.bytes[s.condBit / 8]?).getD 0) (s.condBit % 8) != s.invert

/-- A firing counted (R177). -/
def Cell.fired (c : Cell) : Cell := { c with notes := c.notes ++ [.count 5 7 0 1] }

/-- A unit whose condition token, at the head of queue `q`, is poisoned stops and raises a job fault (R164). -/
def Cell.steerStop (c : Cell) (u q : Nat) : Cell :=
  { c with
    rig := { c.rig with stopped := sadd c.rig.stopped u }
    notes := c.notes ++ c.rig.headNotes q ++ [.fault 3 0x3FFFF] }

/-- A switch's firing (Table 07-3). -/
def steerSwitch (u : Nat) (s : Steer) (c : Cell) : Cell :=
  match c.rig.head s.c, c.rig.head s.a with
  | some tc, a =>
    if tc.bad then c.steerStop u s.c
    else
      match a with
      | none => c
      | some ta =>
        let d := if steerCond s tc then s.d1 else s.d0
        if c.rig.destRoom d then (((c.takeToken s.a).takeToken s.c).toDest d ta).fired else c
  | none, _ => c

/-- A select's firing (Table 07-3). -/
def steerSelect (u : Nat) (s : Steer) (c : Cell) : Cell :=
  match c.rig.head s.c with
  | some tc =>
    if tc.bad then c.steerStop u s.c
    else
      let q := if steerCond s tc then s.b else s.a
      match c.rig.head q with
      | some t => if c.rig.destRoom s.d0 then (((c.takeToken s.c).takeToken q).toDest s.d0 t).fired else c
      | none => c
  | none => c

/-- The queue a merge takes from (R163): of two ready heads the one it did not take last; A first. -/
def mergeSource (g : Rig) (u : Nat) (s : Steer) : Option Nat :=
  match g.queue s.a, g.queue s.b with
  | [], [] => none
  | _ :: _, [] => some s.a
  | [], _ :: _ => some s.b
  | _ :: _, _ :: _ => some (if shas g.mergeB u then s.b else s.a)

/-- A merge's firing (Table 07-3); `mergeB` lists the units that took A last. -/
def steerMerge (u : Nat) (s : Steer) (c : Cell) : Cell :=
  match mergeSource c.rig u s with
  | none => c
  | some q =>
    match c.rig.head q with
    | none => c
    | some t =>
      if c.rig.destRoom s.d0 then
        let c := ((c.takeToken q).toDest s.d0 t).fired
        let last := if q = s.a then sadd c.rig.mergeB u else sdel c.rig.mergeB u
        { c with rig := { c.rig with mergeB := last } }
      else c

/-- A fork's firing (Table 07-3). -/
def steerFork (s : Steer) (c : Cell) : Cell :=
  match c.rig.head s.a with
  | none => c
  | some t =>
    let room := c.rig.destRoom s.d0 && c.rig.destRoom s.d1 && (decide (128 ≤ s.d0 ∨ 128 ≤ s.d1 ∨ s.d0 % 16 ≠ s.d1 % 16) ||
      decide ((c.rig.queue (64 + s.d0 % 16)).length + 1 < queueDepth))
    if room then (((c.takeToken s.a).toDest s.d0 t).toDest s.d1 t).fired else c

/-- A steering unit's firing (R162 to R164). -/
def steerStep (u : Nat) (c : Cell) : Cell :=
  if shas c.rig.stopped u then c
  else
    let s := c.rig.steer u
    match s.kind with
    | 1 => steerSwitch u s c
    | 2 => steerSelect u s c
    | 3 => steerMerge u s c
    | 4 => steerFork s c
    | _ => c

/-- Tokens held in a node: in its queues and in the seams on their way to them (R171). -/
def Rig.tokens (g : Rig) : Nat :=
  (g.queues.map (fun e => e.2.length)).foldl (· + ·) 0 + (g.seam.map (fun e => e.2.length)).foldl (· + ·) 0

/-- The node emptied of tokens, with every credit at its sender (R172, R174). -/
def Rig.empty (g : Rig) : Rig := { g with queues := [], spent := [], owed := [], seam := [], mergeB := [], stopped := [] }

/-- Installation (R172): the plan banks change places, the node is emptied. -/
def Rig.install (g : Rig) : Rig := { g.empty with active := g.staged, staged := g.active }

/-- An occupied-queue count for the sample record (Table 07-12). -/
def Rig.occupancy (g : Rig) : Nat := (g.queues.map (fun e => e.2.length)).foldl (· + ·) 0

/-- The fullest queue, the lowest number on a tie (Table 07-12). -/
def fullest : SMap (List Token) → Nat × Nat
  | [] => (0, 0)
  | (q, l) :: m => let r := fullest m; if r.2 ≤ l.length then (q, l.length) else r

/-- The sample record of R176, with MODE and QSEL of RIG_SAMPLE. -/
def Rig.sample (g : Rig) (mode qsel : Nat) : Word :=
  let f := fullest g.queues
  let qid := if mode = 1 then f.1 else 0
  let occ := if mode = 0 then g.occupancy else if mode = 1 then f.2 else (g.queue qsel).length
  BitVec.ofNat 64 (g.blocked % 65536 * 2 ^ 48 + g.sent % 65536 * 2 ^ 32 + qid % 128 * 2 ^ 11 + occ % 2048)

end Sys2Proof.Machine
end

