-- ==== Sys2Proof/Config.lean ====
section
/-! DEFINITION. What the manual leaves to the implementation or to the outside: constants without a body, so
that no proof can rest on a value of theirs. -/

namespace Sys2Proof

/-- The n-th value the manual leaves open (undefined data, the random source's draws): R27, R182, R298. Log entry 2. -/
opaque Config.freeValue : Nat → Word

/-- The bank and the row that a byte of a stratum channel lies in: the controller's own, not published (R180). -/
opaque Config.bankRow : Nat → Nat × Nat

/-- Whether a firmware image's ECDSA P-384 signature verifies against Goltobin's signing key (R410). -/
opaque Config.sigOk : List Byte → List Byte → Bool

/-- The signature the attestation responder makes with the module's identity key (R414, R415), over the
transcript the model hands it. -/
opaque Config.sign : List Byte → List Byte

/-- The digest of the boot ROM, fixed at manufacture, by word (R411, Table 19-1). -/
opaque Config.romDigest : Nat → Word

/-- The digest of the module's factory fuse map (R359, R411, Table 19-1), by byte. -/
opaque Config.fuseDigest : Nat → Byte

/-- The certificate chain of slot 0, as bytes (R414). -/
opaque Config.certChain : List Byte

end Sys2Proof
end

