-- ==== Sys2Proof/Machine/ModState.lean ====
section
/-! DEFINITION. The state of the module around its cells: fields, mesh, stratum channels, Shedin, companies with their
rings, productions and jobs, Prompter's own records, and the standby logic. Plain data. -/

namespace Sys2Proof.Machine

/-! Fields (01, 14, 15, 16, 18, 20). -/

/-- A field beside its registers and cells (R157, R331, R330, R341, R345, R349, R429): whether its fabric domain is
on, whether a drain of its compute or fabric domain runs (R403); its cycle count, slot counter and slots passed; the switch in
progress (0 none, 1 to the fallback clock, 2 waiting for lock, 3 back to the PLL) with its frequency in 10 MHz, and those
waiting; relock tries; n_P; the floor F and the decay's anchor in milliamperes, whether a decay runs; the trace's
frame number, frames dropped since the last, lines since EN; the cells a rehearsal covers; the power domain's
power-ups (R424); the engine reset in progress: logical cell, unit, and whether it waits for a generation to age (R394, R400), when that
wait began and then its length in ns (R407), and the engines that an escalation has still to reset (R397);
whether vamp has run since the last control step; FIELD_PWR_CTRL and FIELD_VAMP as they are in force (R352). -/
structure Field where
  fabricOn : Bool
  drainCompute : Bool
  drainFabric : Bool
  cycle : Nat
  slot : Nat
  slots : Nat
  switching : Nat
  freq : Nat
  switches : List Nat
  tries : Nat
  nP : Nat
  floor : Nat
  anchor : Nat
  decay : Bool
  frames : Nat
  dropped : Nat
  lines : Nat
  rehearsing : List (Nat × Nat)
  ups : Nat
  stratUps : Nat
  eng : Option (Nat × Nat × Bool)
  engWait : List (Nat × Nat)
  engAged : Nat
  vamped : Bool
  pwrCtrl : Word
  vampCtrl : Word
deriving DecidableEq, Repr

def Field.zero : Field :=
  ⟨false, false, false, 0, 0, 0, 0, 0x28, [], 0, 0, 0, 0, false, 0, 0, 0, [], 0, 0, none, [], 0, false, 0xF86E0C18, 0x003C0032⟩

/-! Mesh and stratum channels. -/

/-- A request at a channel controller (R180, R187): the request and the router its reply leaves from (R213). -/
structure ChanReq where
  req : Req
  mx : Nat
  my : Nat
deriving DecidableEq, Repr

/-- A stratum channel (R178, R180, R190, R195): its queue in order of arrival, the open row of each bank (plus 1), the
corrected bursts awaiting write-back, keyed as in the stratum. -/
structure Chan where
  queue : List ChanReq
  rows : SMap Nat
  wbacks : List Nat
deriving DecidableEq, Repr

def Chan.zero : Chan := ⟨[], [], []⟩

/-! Shedin (11). -/

/-- A shared output's arbitration between claimants 0 to 16 with guaranteed shares (R312): bytes served; for each claimant that waits,
the bytes served when its wait began and its guaranteed bytes since; the claimant that capacity left over goes to next. -/
structure Arb where
  total : Nat
  claims : SMap (Nat × Nat)
  turn : Nat
deriving DecidableEq, Repr

def Arb.zero : Arb := ⟨0, [], 0⟩

/-- An optical port (R243 to R247): frames that wait, in order of arrival, the next LINK_SEQ, unacknowledged frames, the
LINK_SEQ expected next, whether a retry has been asked for, the frame last sent again and how often; packets at the ingress edge;
the spare's state is in PORT_STAT. `sparing`: the lane being replaced. Its bulk arbitration, and whether a group frame went last. -/
structure Port where
  egress : List Frame
  nextSeq : Nat
  unacked : List Frame
  expect : Nat
  asked : Bool
  failSeq : Nat
  failed : Nat
  ingress : List Frame
  sparing : Bool
  arb : Arb
  groupLast : Bool
deriving DecidableEq, Repr

def Port.zero : Port := ⟨[], 0, [], 0, false, 0, 0, [], false, .zero, false⟩

/-- A flow pair with another device in one class (R249 to R251): next number to send, latest ACK_SEQ received,
receive mark, the numbers above it already delivered, the mark last sent, packets the window holds back with their egress
ports. -/
structure Flow where
  next : Nat
  acked : Nat
  mark : Nat
  got : List Nat
  told : Nat
  held : List (Nat × Frame)
deriving DecidableEq, Repr

def Flow.zero : Flow := ⟨0, 0, 0, [], 0, []⟩

/-- A remote request tag in use (R253, R402): the request, its port and the router its reply goes to; `dead`: abandoned by a reset. -/
structure TagUse where
  req : Req
  port : Nat
  mx : Nat
  my : Nat
  dead : Bool
deriving DecidableEq, Repr

/-- A group operation's descriptor as the home engine reads it (Table 11-8). -/
structure GroupDesc where
  co : Nat
  op : Nat
  ledger : Bool
  group : Nat
  round : Nat
  ledgerId : Nat
  src : Nat
  dst : Nat
  bytes : Nat
  doneOff : Nat
deriving DecidableEq, Repr

/-- A chunk held by a chorus engine: the child port it came from, or 48 for one that came down, its number, its bytes. -/
structure Chunk8 where
  port : Nat
  k : Nat
  bytes : List Byte
deriving DecidableEq, Repr

/-- An open round (R268 to R272): this device's descriptor, the round and its chunk count, chunks held, upward chunks
sent, downward chunks passed on, chunks written here, the failure status, 0 for none. -/
structure Round where
  desc : Option GroupDesc
  round : Nat
  chunks : Nat
  held : List Chunk8
  sent : Nat
  passed : Nat
  written : Nat
  fail : Nat
  ledger : Bool
  ledgerId : Nat
  dst : Nat
deriving DecidableEq, Repr

/-! Companies (07, 12, 13, 17, 18). -/

/-- A cue read from a command ring: its index and its 64 bytes, none where the read failed (R292). -/
structure Cue where
  index : Nat
  bytes : Option (List Byte)
deriving DecidableEq, Repr

/-- A command ring beside its registers (R286, R290): FETCHED, reads outstanding (first index and count), cues read and
not begun, the begun cue and the completion ring that its slot is reserved on; an overrun completion waiting (its INDEX). -/
structure CmdRing where
  fetched : Nat
  reads : List (Nat × Nat)
  cues : List Cue
  cur : Option Cue
  dest : Nat
  overrun : Option Nat
deriving DecidableEq, Repr

def CmdRing.zero : CmdRing := ⟨0, [], [], none, 0, none⟩

/-- A completion ring beside its registers (R287, R288): the host's HEAD, reserved slots, entries for IRQ cues since
the last message, whether one of them waits for its message. -/
structure CplRing where
  head : Nat
  reserved : Nat
  unsignalled : Nat
deriving DecidableEq, Repr

def CplRing.zero : CplRing := ⟨0, 0, 0⟩

/-- A loaded production (R293, R294): grid, SLOT_BYTES, MAP_OFF, ARG_OFF, its scenes as (interval, ENTRY), its groups,
the identity of its image (R375), its job cells by field and logical cell in production order (R296). -/
structure Production where
  gx : Nat
  gy : Nat
  slotBytes : Nat
  mapOff : Nat
  argOff : Nat
  scenes : List (Bool × Nat)
  groups : List Nat
  crc : Nat
  imageBytes : Nat
  cells : List (Nat × Nat)
deriving DecidableEq, Repr

/-- A load whose checks have passed (R298): the command ring of its cue, the image's host address, the image and the group list as
checked. -/
structure Loading where
  ring : Nat
  at_ : Word
  image : List Byte
  groups : List Byte
deriving DecidableEq, Repr

/-- A running job (R300, R301): the ring of its RUN cue, its start scene and the scene S0 its step began in (R370), the
first non-zero JEND status with its cell (R150); the completion decided by a stop, as status and INFO, while the stop
runs; the declared output range (R373); the cells that
tripped in the step; the reasons 3 to 5 of R372 that its accesses gave. -/
structure Job where
  ring : Nat
  start : Nat
  s0 : Nat
  first : Option (Nat × Nat × Nat)
  range : Option (Nat × Nat)
  tripped : List (Nat × Nat)
  why : List Nat
deriving DecidableEq, Repr

/-- A scene change or a staging (R168 to R172): target, whether forced, the ring of its cue, its phase (0 staging, 1
acknowledging, 2 striking, 3 installing, 4 release, 5 struck and its step in staging, 6 struck and its job ending), the fields asked and installed,
whether it was forced by timeout, whether STOP_PENDING was 1 when the strike began, whether its installation takes the staged banks. -/
structure SceneChange where
  target : Nat
  forced : Bool
  timedOut : Bool
  cue : Option Nat
  phase : Nat
  asked : List Nat
  done : List Nat
  stopAt : Bool
  useStaged : Bool
deriving DecidableEq, Repr

/-- An encore (R371, R374 to R376): 0 none, 1 copy to the partner, 2 replay, 3 comparing, 4 copy back; digests; whether the replay
tripped, reached the same end, its trips; what to do at the commit: the scene change's strike or the job's end; whether it is a replay
served here for another device (R375). -/
structure Encore where
  phase : Nat
  own : List Byte
  other : List Byte
  trips : Nat
  sameEnd : Bool
  atEnd : Bool
  serving : Bool
deriving DecidableEq, Repr

def Encore.zero : Encore := ⟨0, [], [], 0, false, false, false⟩

/-- A reset of a company in progress (R391 to R395): 1 context, 3 partition, and whether it waits for a generation value
to age (R400); `aged`: when that wait began, then its length in ns (R407). `status`, `info`: the run completion it writes. -/
structure CoReset where
  level : Nat
  status : Nat
  info : Word
  hadJob : Bool
  waitGen : Bool
  silent : Bool
  aged : Nat
deriving DecidableEq, Repr

/-- A company beside its registers: polls outstanding, those whose data is dropped, failed in a row (R284); rings; production,
load, the rings of an UNLOAD; job, scene change, whether a scene was installed since the load (R172); reset; generations
left within 34 ms (R400); waiting chorus descriptors (R267); encore; loads since
power cycle; whether a step's end found the job held; energy not yet counted (R351); trips of cells by time (R379); whether vector 0 is due (R288). -/
structure Company where
  polls : Nat
  stale : Nat
  pollFails : Nat
  rings : SMap CmdRing
  cpls : SMap CplRing
  prod : Option Production
  loading : Option Loading
  unloading : Option Nat
  job : Option Job
  change : Option SceneChange
  installed : Bool
  reset : Option CoReset
  gens : List Nat
  chorus : List Nat
  enc : Encore
  loadNo : Nat
  heldAt : Bool
  remProd : Nat
  remJob : Nat
  remCo : Nat
  trips : List (Nat × Nat)
  evMsg : Bool
deriving DecidableEq, Repr

def Company.zero : Company :=
  ⟨0, 0, 0, [], [], none, none, none, none, none, false, none, [], [], .zero, 0, false, 0, 0, 0, [], false⟩

/-! Prompter's records (16, 17, 19, 20). -/

/-- A defect entry (R357): a cell by field, row and physical column; a stratum row by field, channel, bank and row; a lane or link. -/
inductive Defect where
  | cell (f row pcol : Nat)
  | stratumRow (f ch bank row : Nat)
  | lane (a b : Nat)
deriving DecidableEq, Repr

/-- The health record (R357, R399), beside HEALTH_CTRL.QUICK_EN: the PTP time of the last full bring-up (none without PTP time) and
whether it ended clean; the PTP time of the last clean one; QUICK_COUNT, the uncorrectable flag, full only, the entries, the requests RETEST and FORCE_FULL, DGEN. -/
structure Health where
  lastAt : Option Nat
  lastClean : Bool
  fullAt : Option Nat
  quicks : Nat
  uncorr : Bool
  fullOnly : Bool
  entries : List Defect
  added : Bool
  retest : Bool
  forceFull : Bool
  dgen : Nat
deriving DecidableEq, Repr

/-- The fuse map (Tables 16-3 and 22-1), written at test and never changed: the identity block's registers; L and SPARE_GOOD by
field * 16 + row; FIELD_OPP by field; ports with their spare lane in use; the repaired SRAM rows, the disabled stratum rows and the
disabled mesh links, each by a number of its own, which nothing outside the units that bypass them sees (R57, R192). -/
structure Fuses where
  identity : Word
  revision : Word
  eui48 : Word
  serial : Word
  rows : SMap (Nat × Bool)
  vcodes : SMap Word
  spareLanes : List Nat
  sramRows : List Nat
  stratRows : List Nat
  meshLinks : List Nat
deriving DecidableEq, Repr

/-- A snapshot's latch (R422): the group's values and header taken at the strobe. -/
structure Snap where
  vals : List Word
  absent : Nat
  restart : Nat
  applied : Bool
  time : Nat
deriving DecidableEq, Repr

/-- What the attestation responder's endpoint holds (R416, R417): whether a version, capabilities and algorithms have
been agreed, and the transcript since GET_VERSION. -/
structure Spdm where
  stage : Nat
  transcript : List Byte
deriving DecidableEq, Repr

def Spdm.zero : Spdm := ⟨0, []⟩

/-! Standby logic (14, 18, 21). -/

/-- The start-up sequence of the standby logic (R321, R327): off; settling or waiting for the next attempt; a coarse
window; the trim search with its bits left; a fine window; the delay-mode wait; the management PLL locking; running;
dark. -/
inductive ClkPhase where
  | off
  | idle
  | coarse
  | trim (left : Nat)
  | fine
  | delayWait
  | pll
  | running
  | dark
deriving DecidableEq, Repr

/-- The standby domain's state (R319 to R328, R434 to R451): the input in mV, PWR_EN, whether a power-up waits for 47 V, the straps as
sampled, the start-up phase, attempts made, the last code, the trim code and its start-up value, windows out of
tolerance in a row, good fine windows in a row; how far from 3,200 the trim search's last kept and last dropped code counted (R323);
THERMTRIP_N driven; the TAP's instruction and boundary
registers; the time (plus 1) of the last reset of Prompter by the watchdog. -/
structure Standby where
  vin : Nat
  pwrEn : Bool
  waitVin : Bool
  straps : Straps
  phase : ClkPhase
  attempts : Nat
  code : Nat
  trim : Nat
  trim0 : Nat
  outs : Nat
  goods : Nat
  keptBy : Option Nat
  droppedBy : Option Nat
  thermtrip : Bool
  ir : Nat
  boundary : Nat
  wdogAt : Nat
deriving DecidableEq, Repr

/-- What leaves the module (log entry 4): reads and writes of host memory by port and function, MSI-X messages, frames
on an optical port, UDP datagrams, answers on SMBus, of the attestation responder, of the TAP. -/
inductive Output where
  | hostRead (port fn : Nat) (addr : Word) (n : Nat)
  | hostWrite (port fn : Nat) (addr : Word) (bytes : List Byte)
  | msix (port fn vec : Nat) (addr : Word) (data : Word32)
  | frame (p : Nat) (fr : Frame)
  | datagram (ip : Nat) (udpPort : Nat) (bytes : List Byte)
  | smbus (v : Nat)
  | spdm (ep : SpdmEndpoint) (bytes : List Byte)
  | tap (v : Nat)
deriving DecidableEq, Repr

end Sys2Proof.Machine
end

