-- ==== Sys2Proof/Machine/Regs.lean ====
section
/-! DEFINITION. The register map of BAR0: for each offset, the register there, its width, its fields, access
codes, reset values and valid encodings (R6 to R9, R452 to R459 and the register tables of the chapters). -/

namespace Sys2Proof.Machine

/-- The access codes of Table 00-5. `rws`: a sticky field that host writes change; `rwsHw`: one that only
hardware changes; `rwsW1c`: one cleared by writing 1. -/
inductive Acc where
  | ro | rw | w1c | wo | rws | rwsHw | rwsW1c | rsn
deriving DecidableEq, Repr

/-- A field of a register: bits [hi:lo], access, reset value, and the ranges of its valid encodings (none
listed: all are valid). -/
structure FieldD where
  hi : Nat
  lo : Nat
  acc : Acc
  rst : Nat
  valid : List (Nat × Nat)
deriving DecidableEq, Repr

/-- A register: its width in bits and its fields; bits in no field are reserved. -/
structure RegD where
  width : Nat
  fields : List FieldD
deriving DecidableEq, Repr

def roF (hi lo rst : Nat) : FieldD := ⟨hi, lo, .ro, rst, []⟩
def rwF (hi lo rst : Nat) : FieldD := ⟨hi, lo, .rw, rst, []⟩
def rwV (hi lo rst a b : Nat) : FieldD := ⟨hi, lo, .rw, rst, [(a, b)]⟩
def w1cF (hi lo : Nat) : FieldD := ⟨hi, lo, .w1c, 0, []⟩
def woF (hi lo : Nat) : FieldD := ⟨hi, lo, .wo, 0, []⟩
def rwsF (hi lo : Nat) : FieldD := ⟨hi, lo, .rws, 0, []⟩
def hwF (hi lo : Nat) : FieldD := ⟨hi, lo, .rwsHw, 0, []⟩
def rsnF (hi lo : Nat) : FieldD := ⟨hi, lo, .rsn, 0, []⟩

def roR (width rst : Nat) : RegD := ⟨width, [roF (width - 1) 0 rst]⟩

/-- Where a field lies: the offset of its register in BAR0 and its bits. -/
structure Fld where
  off : Nat
  hi : Nat
  lo : Nat
deriving DecidableEq, Repr

/-! Block bases (Table 22-5). -/
def coBase (c : Nat) : Nat := 0x30000 + c * 0x1000
def ringBase (c : Nat) : Nat := 0x40000 + c * 0x1000
def shBase : Nat := 0x100000
def cntBase : Nat := 0x300000
def errBase : Nat := 0x400000
def fieldBase (f : Nat) : Nat := 0x1000000 + f * 0x10000
def ledgerOff (c l : Nat) : Nat := 0x180000 + c * 0x8000 + l * 8
def groupOff (g : Nat) : Nat := 0x120000 + g % 1024 * 16

/-- FIELD_INFO of an enabled field in no company (Table 22-2). -/
def fieldInfoReset (f : Nat) : Nat := 2 ^ 31 + (f / 9) * 2 ^ 12 + (f % 9) * 2 ^ 8 + f

/-- The voltage codes of FIELD_OPP; fused, taken at the nominal voltages of Table 15-4. Log entry 5. -/
def nominalVcodes : Nat :=
  40 + 52 * 2 ^ 8 + 72 * 2 ^ 16 + 92 * 2 ^ 24 + 104 * 2 ^ 32 + 116 * 2 ^ 40 + 128 * 2 ^ 48 + 140 * 2 ^ 56

/-- Four field-row entries of an intact wafer: L 24, fused L 24, a good spare (Table 16-7). Log entry 5. -/
def nominalRows : Nat := 0x0718 * (1 + 2 ^ 16 + 2 ^ 32 + 2 ^ 48)

/-- Field registers (Table 22-7), by offset in the field block. -/
def fieldReg (f o : Nat) : Option RegD :=
  match o with
  | 0x0 => some ⟨32, [roF 31 0 (fieldInfoReset f)]⟩
  | 0x400 => some ⟨32, [rwV 23 16 0x40 1 255, rwV 11 8 0xA 4 15, rwF 0 0 1]⟩
  | 0x410 => some ⟨32, [rwF 11 8 0, rwF 0 0 1]⟩
  | 0x420 => some ⟨32, [rwV 9 3 0 0 79, rwV 2 1 0 0 2, rwF 0 0 1]⟩
  | 0x430 => some ⟨32, [roF 23 16 0x28, roF 15 8 0, roF 4 4 0, roF 3 3 0, roF 2 2 0, roF 1 1 1, roF 0 0 0]⟩
  | 0x440 => some ⟨32, [rwF 31 29 7, rwV 28 20 0x186 100 390, rwV 19 14 0x38 0 60, rwF 13 6 0x30, rwV 5 2 6 1 15]⟩
  | 0x444 => some ⟨32, [rwV 23 16 0x3C 0 90, rwV 9 0 0x32 1 1000]⟩
  | 0x448 => some ⟨64, [roF 63 36 0, roF 35 33 7, roF 32 0 0]⟩
  | 0x450 => some (roR 64 nominalVcodes)
  | 0x460 => some (roR 64 nominalRows)
  | 0x468 => some (roR 64 nominalRows)
  | 0x470 => some (roR 64 nominalRows)
  | 0x478 => some (roR 64 nominalRows)
  | 0x480 => some ⟨32, [woF 31 31, roF 30 30 0, w1cF 29 29, ⟨12, 9, .rw, 0, [(0, 7), (9, 9)]⟩, rwV 8 0 0 0 383]⟩
  | 0x490 => some ⟨64, [rwF 63 63 0, rwF 62 62 0, rwF 61 58 0, rwF 47 24 0, rwV 23 12 0 1 4095]⟩
  | 0x498 => some ⟨64, [roF 63 32 0, roF 31 16 0, w1cF 2 2, roF 1 1 0, roF 0 0 0]⟩
  | _ => none

/-- The sixteen 4-bit fields of an OPP_MAP register (Table 15-16). -/
def oppFields : Nat → List FieldD
  | 0 => []
  | n + 1 => oppFields n ++ [rwV (4 * n + 3) (4 * n) 7 0 7]

/-- Company registers (Table 22-8), by offset in the company block. -/
def companyReg (o : Nat) : Option RegD :=
  if 0x300 ≤ o ∧ o < 0x380 ∧ o % 8 = 0 then some ⟨64, oppFields 16⟩ else
  match o with
  | 0x0 => some (roR 64 0)
  | 0x100 => some ⟨64, [woF 31 31, rwF 30 30 0, woF 29 29, rwF 23 16 0, rwV 15 8 0x10 1 255, rwV 7 0 0x10 1 255]⟩
  | 0x108 => some ⟨64, [roF 63 14 0, w1cF 12 12, roF 11 8 0]⟩
  | 0x110 => some (roR 64 0)
  | 0x200 => some ⟨32, [w1cF 31 31, w1cF 30 30, rwF 16 16 0, rwF 15 0 0]⟩
  | 0x208 => some ⟨64, [roF 63 52 0, woF 2 2, woF 1 1, roF 0 0 0]⟩
  | 0x210 => some ⟨64, [woF 47 0]⟩
  | 0x218 => some ⟨64, [roF 15 8 0, w1cF 1 1, w1cF 0 0]⟩
  | 0x380 => some (roR 64 0)
  | 0x388 => some (roR 64 0)
  | 0x390 => some (roR 64 0)
  | 0x400 => some ⟨64, [rwF 63 52 0, rwF 51 36 0, rwF 28 22 0, rwV 21 14 0xA 1 255, rwF 13 2 0, rwF 1 0 0]⟩
  | 0x408 => some ⟨64, [rwF 47 6 0]⟩
  | 0x410 => some ⟨64, [rwF 39 0 0]⟩
  | 0x418 => some ⟨64, [roF 63 4 0, w1cF 3 3, roF 2 0 0]⟩
  | 0x420 => some (roR 64 0)
  | 0x428 => some (roR 64 0)
  | 0x500 => some ⟨32, [woF 31 31, woF 30 30, woF 29 29, woF 5 0]⟩
  | 0x508 => some (roR 64 0)
  | 0x800 => some ⟨64, [rwF 63 63 0, rwF 59 58 0, rwV 57 53 0 0 16, rwV 31 28 0 0 8, rwV 27 24 0 0 8, rwF 22 20 0, rwF 18 16 0]⟩
  | 0x808 => some ⟨64, [rwV 42 32 0 0 1024, rwV 22 16 0 0 64, rwV 14 8 0 0 64, rwV 6 0 0 0 48]⟩
  | 0x810 => some ⟨32, [roF 15 8 0, roF 2 2 0, w1cF 1 1, w1cF 0 0]⟩
  | _ => none

/-- Ring registers (Tables 12-13 to 12-17), by offset in the ring block. -/
def ringReg (o : Nat) : Option RegD :=
  if 0x400 ≤ o ∧ o < 0x800 then
    if o % 16 = 0 then some ⟨64, [rwF 63 12 0]⟩
    else if o % 16 = 8 then
      some ⟨64, [roF 63 32 0, rwF 31 31 0, w1cF 30 30, rwF 29 24 0, rwV 23 19 6 6 16]⟩
    else none
  else if 0x800 ≤ o ∧ o < 0xC00 then
    if o % 16 = 0 then some ⟨64, [rwF 63 12 0]⟩
    else if o % 16 = 8 then
      some ⟨64, [roF 63 32 0, rwF 31 31 0, ⟨30, 24, .rw, 0x7F, [(1, 64), (127, 127)]⟩, rwV 23 19 6 6 16,
        rwV 15 8 1 1 255, rwF 7 0 0]⟩
    else none
  else if 0xC00 ≤ o ∧ o < 0x1000 then
    if o % 16 = 0 then some ⟨64, [rwF 63 12 0]⟩
    else if o % 16 = 8 then some ⟨64, [rwF 63 63 0, rwF 27 0 0]⟩
    else none
  else
  match o with
  | 0x0 => some ⟨64, [rwF 63 12 0]⟩
  | 0x8 => some ⟨32, [rwF 31 31 0, rwV 27 16 4 1 4000, rwF 3 0 0]⟩
  | 0x10 => some ⟨32, [w1cF 4 4, w1cF 3 3, w1cF 2 2, w1cF 1 1, w1cF 0 0]⟩
  | 0x14 => some ⟨32, [rwF 4 0 0x1F]⟩
  | _ => none

/-- DMTF value types of the measurement registers (Table 19-1). -/
def measType (k : Nat) : Nat := ([0, 1, 1, 1, 2, 3, 0x87][k]?).getD 0

/-- Device control registers (Table 22-6). -/
def deviceReg (o : Nat) : Option RegD :=
  if 0x800 ≤ o ∧ o < 0x9C0 then
    if o % 0x40 < 0x30 then (if o % 8 = 0 then some (roR 64 0) else none)
    else if o % 0x40 = 0x30 then
      some ⟨64, [roF 63 32 0, roF 23 16 (measType ((o - 0x800) / 0x40)), roF 15 8 0, roF 7 7 0, roF 6 6 0]⟩
    else none
  else
  match o with
  | 0x0 => some ⟨32, [w1cF 3 3, roF 2 2 0, roF 1 1 0, roF 0 0 0]⟩
  | 0x8 => some ⟨32, [rwsF 11 0]⟩
  | 0x100 => some (roR 64 0)
  | 0x108 => some ⟨32, [woF 2 2, woF 1 1, rwF 0 0 1]⟩
  | 0x110 => some ⟨64, [roF 63 32 0xFFFFFFFF, roF 31 0 0]⟩
  | 0x200 => some ⟨32, [woF 1 1, woF 0 0]⟩
  | 0x204 => some ⟨32, [woF 31 0]⟩
  | 0x208 => some ⟨64, [roF 63 48 0, roF 47 40 0, hwF 39 32, hwF 31 24, hwF 15 12, roF 5 5 0, w1cF 4 4, roF 3 3 0, roF 2 2 0, roF 1 1 0, hwF 0 0]⟩
  | 0x300 => some (roR 32 0)
  | _ => none

/-- Shedin registers (Tables 11-5, 11-7, 11-12 to 11-15), by offset in the Shedin block. -/
def shedinReg (o : Nat) : Option RegD :=
  if o = 0 then some ⟨32, [rwV 31 24 0x64 70 255, rwV 23 16 0x32 1 255, woF 2 2, hwF 1 1, rwF 0 0 0]⟩
  else if o = 8 then some ⟨64, [roF 63 45 0, roF 31 16 0, w1cF 3 3, w1cF 2 2, roF 0 0 0]⟩
  else if 0x100 ≤ o ∧ o < 0x280 ∧ o % 8 = 0 then
    some ⟨64, [roF 30 28 1, roF 27 27 0, roF 26 24 0, roF 16 0 0]⟩
  else if 0x300 ≤ o ∧ o < 0x3C0 ∧ o % 4 = 0 then some ⟨32, [rwF 0 0 1]⟩
  else if 0x10000 ≤ o ∧ o < 0x20000 ∧ o % 8 = 0 then
    some ⟨64, [rwsF 63 63, ⟨62, 61, .rws, 0, [(0, 2)]⟩, rwsF 25 24, ⟨23, 18, .rws, 0, [(0, 47)]⟩,
      ⟨17, 12, .rws, 0, [(0, 47)]⟩, ⟨11, 6, .rws, 0, [(0, 47)]⟩, ⟨5, 0, .rws, 0, [(0, 47)]⟩]⟩
  else if 0x20000 ≤ o ∧ o < 0x24000 then
    if o % 16 = 0 then
      some ⟨64, [rwF 63 63 0, rwF 62 62 0, rwF 61 61 0, rwF 60 60 0, rwV 59 54 0 0 47, rwV 53 48 0 0 47, rwF 47 0 0]⟩
    else if o % 16 = 8 then some ⟨64, [rwF 63 48 0, rwV 47 46 0 0 2, rwV 45 42 0 0 3]⟩
    else none
  else if 0x80000 ≤ o ∧ o < 0x100000 ∧ o % 8 = 0 then some ⟨64, [rwF 31 0 0]⟩
  else none

/-- Counter-block registers (Tables 20-5 and 20-6), by offset in the block. -/
def counterReg (o : Nat) : Option RegD :=
  if o < 0x100 then
    if o % 16 = 0 then some ⟨32, [woF 31 31, rwF 30 30 0]⟩
    else if o % 16 = 8 then some ⟨32, [w1cF 2 2, roF 1 1 0, roF 0 0 0]⟩
    else none
  else if 0x1000 ≤ o ∧ o < 0x1800 ∧ o % 8 = 0 then
    some ⟨64, [rwF 63 63 0, rwF 62 62 0, rwF 61 58 0, rwF 57 50 0, rwF 48 23 0]⟩
  else if 0x2000 ≤ o ∧ o < 0x3000 ∧ o % 8 = 0 ∧ o % 0x100 < 0x90 then
    if o % 0x100 = 8 then some ⟨64, [rsnF 63 47, rsnF 31 0]⟩ else some ⟨64, [rsnF 63 0]⟩
  else if 0x3000 ≤ o ∧ o < 0x3800 then
    if o % 0x20 = 0 then some ⟨64, [rwF 63 63 0, rwF 61 58 0, rwF 57 50 0, rwF 48 23 0, rwF 19 0 0]⟩
    else if o % 0x20 = 0x10 then some (roR 64 0)
    else if o % 0x20 = 0x18 then some ⟨64, [w1cF 63 63, roF 62 62 0, roF 51 32 0, roF 19 0 0]⟩
    else none
  else if 0x40000 ≤ o ∧ o < 0x40000 + 1152 * 16 then
    if o % 16 = 0 then some (roR 64 0)
    else if o % 16 = 8 then some ⟨64, [w1cF 63 63, roF 62 62 0, roF 51 32 0, roF 19 0 0]⟩
    else none
  else
  match o with
  | 0x3800 => some (roR 64 0)
  | 0x3808 => some ⟨64, [w1cF 0 0]⟩
  | 0x3810 => some (roR 64 0)
  | 0x3818 => some (roR 64 0)
  | 0x3900 => some ⟨64, [rwF 63 63 0, rwF 62 62 0, rwF 47 32 0, rwF 31 16 0, rwV 15 0 0x3E8 1 60000]⟩
  | 0x3908 => some (roR 64 0)
  | _ => none

/-- Error-log registers (Tables 17-11 and 17-12, the list and the ring of R390). -/
def errorReg (o : Nat) : Option RegD :=
  if 0x1000 ≤ o ∧ o < 0x1800 ∧ o % 8 = 0 then some (roR 64 0)
  else if 0x10000 ≤ o ∧ o < 0x50000 ∧ o % 8 = 0 then some (roR 64 0)
  else
  match o with
  | 0x0 => some ⟨32, [rwsF 31 31, rwsF 15 0]⟩
  | 0x10 => some ⟨64, [rwsF 63 0]⟩
  | 0x18 => some ⟨64, [rwsF 63 0]⟩
  | 0x20 => some (roR 64 0)
  | 0x28 => some (roR 32 0)
  | 0x30 => some (roR 64 0)
  | 0x38 => some (roR 64 0)
  | 0x100 => some ⟨64, [w1cF 33 33, roF 32 0 0]⟩
  | _ => none

/-- The register at a BAR0 offset of the physical function, on a part with every field (Table 22-5). -/
def regAt (off : Nat) : Option RegD :=
  if off < 0x1000 then
    match off with
    | 0x0 => some (roR 32 0xA1702C04)
    | 0x4 => some (roR 32 0x0A00)
    | 0x8 => some (roR 64 0)
    | 0x10 => some (roR 64 0)
    | _ => none
  else if off < 0x2000 then deviceReg (off - 0x1000)
  else if 0x10000 ≤ off ∧ off < 0x11000 then
    match off - 0x10000 with
    | 0x0 => some (roR 32 0)
    | 0x8 => some ⟨32, [w1cF 5 5, w1cF 4 4, w1cF 3 3, w1cF 2 2, w1cF 1 1, w1cF 0 0]⟩
    | 0x10 => some ⟨32, [woF 31 31, ⟨23, 16, .rw, 0, [(0, 6), (8, 79), (0x50, 0x97), (0x98, 0xC7), (0xC8, 0xCB)]⟩, rwV 11 8 0 0 10]⟩
    | 0x18 => some (roR 64 0)
    | _ => none
  else if 0x20000 ≤ off ∧ off < 0x21000 then
    match off - 0x20000 with
    | 0x0 => some (roR 64 0)
    | 0x8 => some ⟨32, [rwV 15 0 0x7530 5000 30000]⟩
    | 0x10 => some ⟨32, [w1cF 8 8, w1cF 7 7, w1cF 6 6, w1cF 5 5, ⟨4, 4, .rwsW1c, 0, []⟩, w1cF 3 3, w1cF 2 2, w1cF 1 1, w1cF 0 0]⟩
    | 0x18 => some (roR 64 0)
    | 0x20 => some (roR 64 0)
    | _ => none
  else if 0x30000 ≤ off ∧ off < 0x40000 then companyReg (off % 0x1000)
  else if 0x40000 ≤ off ∧ off < 0x50000 then ringReg (off % 0x1000)
  else if 0x100000 ≤ off ∧ off < 0x200000 then shedinReg (off - 0x100000)
  else if 0x200000 ≤ off ∧ off < 0x201000 then
    if off = 0x200000 then some (roR 64 0)
    else if off = 0x200008 then
      some ⟨32, [rwV 27 25 2 1 7, rwF 24 24 1, rwV 22 16 0x60 2 127, rwV 15 8 0x18 1 255, rwF 0 0 1]⟩
    else if 0x200100 ≤ off ∧ off < 0x200100 + 72 * 8 ∧ off % 8 = 0 then
      some ⟨64, [roF 31 16 0, roF 5 4 2, roF 2 0 0]⟩
    else none
  else if 0x300000 ≤ off ∧ off < 0x380000 then counterReg (off - 0x300000)
  else if 0x400000 ≤ off ∧ off < 0x450000 then errorReg (off - 0x400000)
  else if 0x1000000 ≤ off ∧ off < 0x1480000 then fieldReg ((off - 0x1000000) / 0x10000) (off % 0x10000)
  else none

/-- The value a register's fields reset to (R6). -/
def fieldsReset : List FieldD → Nat
  | [] => 0
  | d :: ds => d.rst * 2 ^ d.lo + fieldsReset ds

/-- What the register at an offset holds at reset. -/
def resetVal (off : Nat) : Word :=
  match regAt off with
  | some d => BitVec.ofNat 64 (fieldsReset d.fields)
  | none => 0

/-- Whether a value is one of a field's valid encodings. -/
def validIn (v : Nat) (rs : List (Nat × Nat)) : Bool :=
  rs.isEmpty || rs.any (fun r => decide (r.1 ≤ v ∧ v ≤ r.2))

/-- One field of a register write (R6, R9): a reserved encoding leaves the field; a write-only field stores nothing. -/
def writeField (old v : Word) (d : FieldD) : Word :=
  let x := bits v d.hi d.lo
  match d.acc with
  | .rw => if validIn x d.valid then setBits old d.hi d.lo x else old
  | .rws => if validIn x d.valid then setBits old d.hi d.lo x else old
  | .w1c => old &&& ~~~ (v &&& fieldMask 64 d.hi d.lo)
  | .rwsW1c => old &&& ~~~ (v &&& fieldMask 64 d.hi d.lo)
  | _ => old

/-- A register write, field by field (R9). -/
def applyWrite (d : RegD) (old v : Word) : Word := d.fields.foldl (fun o f => writeField o v f) old

/-- Whether any of a write's values is a reserved encoding of its field. -/
def anyReserved (d : RegD) (v : Word) : Bool :=
  d.fields.any (fun f => !validIn (bits v f.hi f.lo) f.valid)

/-- What reads of a register's bits return: reserved and write-only bits read as zero (R6, R9). -/
def readMask (d : RegD) (v : Word) : Word :=
  d.fields.foldl (fun o f => match f.acc with | .wo => o | _ => o ||| (v &&& fieldMask 64 f.hi f.lo)) 0

end Sys2Proof.Machine
end

