-- ==== Sys2Proof/Machine/State.lean ====
section
/-! DEFINITION. The machine's state: the commands waiting, the standby domain, and the module. Plain data; its reset
is the module with power applied and PWR_EN low (R434, R445). -/

namespace Sys2Proof.Machine

/-- The module above the standby domain: the registers of BAR0 by offset; cells by physical place (field * 400 + row * 25
+ column); fields; the stratum's bytes by field * 2^35 + byte of the field slot, its poisoned and correctable bursts,
fields to be zero-filled after training, channels whose contents are unknown (Table 08-4) and the bursts known since;
channels; mesh outputs with their last flit slots and the company whose control packet went last; optical ports, flows, recorded generations of other devices, tags,
requests waiting for a tag, requests at the host ports, additions on their way to ledgers, rounds, the rounds each group has closed, the last first, bounces, the quiet
after a reset; companies, rigging plans by scene, field and cell; the health record; the power sequencer with the wave
in progress, P_EFF, the hard limit; snapshots, selections in force, power-ups seen; error records merged and not yet
sent; attestation; the minimum SVN; SR-IOV; the MSI-X tables by host port, function and vector (message address; data with vector control above it) and their pending bits (R280); Prompter (0 off, 1 booting, 2 running, 3 ROM
loop) with the next image; a bring-up's kind and whether it has found nothing; generations left within 34 ms: the device's,
and the engines' (R400); the scopes whose generation a chip reset has still to change (16 the device), and the companies
that held a production as it began, with the generation and the job cells; whether ghost light's exit condition holds (R405);
understudy calls under way by field-row, with the dead column plus 1; units whose last probe failed (R383); host ports out of service (R364) and those whose link a lost clock keeps down (Table 14-3); how often
edge domains have powered up again (R424); energy not yet counted (R351); event counters; the outside's record, free values used, time, PTP;
ALERT_N driven; the host ports whose PERSTp_N is low; the writes to field blocks that wait for the exit from ghost light or the
field's power-up (R17, R405); the fuse map; whether DEV_NUM has been written since the power cycle (R26); whether the selected REFCLK has
failed and not yet been taken up again (R329); the source of the frequency measurement that runs (R334); when a chip reset's wait for
generations began, then its length in ns (R407); the host ports' arbitration (R313); whether the route-table version that is not active has
retired and not been written since (R261). -/
structure Mod where
  regs : SMap Word
  cells : SMap Cell
  fields : SMap Field
  strat : Memory
  stratBad : List Nat
  stratLatent : List Nat
  stratLost : List Nat
  stratOpen : List Nat
  stratKnown : List Nat
  chans : SMap Chan
  routers : SMap (List Packet)
  slots : SMap (List Bool)
  served : SMap Nat
  ports : SMap Port
  flows : SMap Flow
  peers : SMap Nat
  tags : SMap (Option TagUse)
  tagWait : List Packet
  toHost : SMap (List ChanReq)
  ledAdds : SMap Nat
  rounds : SMap (Option Round)
  closed : SMap (List Nat)
  bounces : List Frame
  quiet : Bool
  linked : Bool
  cos : SMap Company
  plans : SMap (List Byte)
  health : Health
  power : List (Bool × List Nat)
  wave : Option (Bool × List Nat)
  pEff : Nat
  hardHold : Bool
  snaps : SMap (Option Snap)
  sels : SMap Word
  upsSeen : SMap Nat
  merges : SMap (Nat × Nat)
  unsent : List Nat
  spdm : SMap Spdm
  minSvn : Nat
  numVfs : SMap Nat
  msixAddr : SMap Word
  msixCtl : SMap Word
  msixPend : List Nat
  prompter : Nat
  nextImage : Nat
  quick : Bool
  clean : Bool
  dgens : List Nat
  egens : List Nat
  chipWaits : List Nat
  chipHeld : List (Nat × Nat × Nat)
  exitHolds : Bool
  calls : SMap Nat
  probeFails : List Nat
  hostOut : List Nat
  linkDown : List Nat
  edgeUps : Nat
  remModule : Nat
  remShared : Nat
  ctr : SMap Word
  out : List Output
  fresh : Nat
  now : Nat
  ptp : Option Nat
  alert : Bool
  perstLow : List Nat
  late : List (Nat × Word)
  fuses : Fuses
  numSet : Bool
  refclkOut : Bool
  measSrc : Nat
  chipAged : Nat
  hostArb : SMap Arb
  retired : Bool
deriving DecidableEq, Repr

/-- The machine. `pending` is the model's own queue of commands, first in, first out. -/
structure State where
  pending : List Instr
  sb : Standby
  m : Mod
deriving DecidableEq, Repr

/-- Why the machine stops: for no reason. Every command answers a next state; a unit that the part does not have answers no access
and does nothing (R1, R458), which leaves the state as it is (log entry 10). -/
inductive Fault where
deriving DecidableEq, Repr

/-- Why a command has no meaning. -/
inductive Refusal where
  /-- Raised by the dispatch for a command whose meaning is not written. Safe: no next state follows from it. -/
  | notModelled (mnemonic : String)
deriving DecidableEq, Repr

/-- A health record as a new module has it (R357; log entry 5). -/
def Health.new : Health := ⟨none, false, none, 0, false, false, [], false, false, false, 0⟩

/-- The fuse map of a GFS-AW1-2304 on which no row, lane or link needed repair (Table 00-2; log entry 5). -/
def Fuses.nominal : Fuses := ⟨0xA1702C04, 0x0A00, 0, 0, [], [], [], [], [], []⟩

/-- The standby domain with the input at 54 V and PWR_EN low (R434, R445; log entry 5). -/
def Standby.reset : Standby :=
  ⟨54000, false, false, ⟨7, 0, 0, 7, 0⟩, .off, 0, 0, 128, 128, 0, 0, none, none, false, 1, 0, 0⟩

/-- The module with nothing powered above standby: every register at its reset value. -/
def Mod.reset : Mod where
  regs := []
  cells := []
  fields := []
  strat := []
  stratBad := []
  stratLatent := []
  stratLost := []
  stratOpen := []
  stratKnown := []
  chans := []
  routers := []
  slots := []
  served := []
  ports := []
  flows := []
  peers := []
  tags := []
  tagWait := []
  toHost := []
  ledAdds := []
  rounds := []
  closed := []
  bounces := []
  quiet := false
  linked := false
  cos := []
  plans := []
  health := .new
  power := []
  wave := none
  pEff := 390
  hardHold := false
  snaps := []
  sels := []
  upsSeen := []
  merges := []
  unsent := []
  spdm := []
  minSvn := 0
  numVfs := []
  msixAddr := []
  msixCtl := []
  msixPend := []
  prompter := 0
  nextImage := 1
  quick := false
  clean := false
  dgens := []
  egens := []
  chipWaits := []
  chipHeld := []
  exitHolds := false
  calls := []
  probeFails := []
  hostOut := []
  linkDown := []
  edgeUps := 0
  remModule := 0
  remShared := 0
  ctr := []
  out := []
  fresh := 0
  now := 0
  ptp := none
  alert := false
  perstLow := [0, 1, 2, 3]
  late := []
  fuses := .nominal
  numSet := false
  refclkOut := false
  measSrc := 0
  chipAged := 0
  hostArb := []
  retired := false

/-- The machine right after power is applied: an empty queue, the standby domain running, nothing else powered. -/
def State.reset : State := ⟨[], .reset, .reset⟩

end Sys2Proof.Machine
end

