-- ==== Sys2Proof/Machine/Fields.lean ====
section
/-! DEFINITION. The register fields that meanings read and write, by name (the register tables of the chapters). -/

namespace Sys2Proof.Machine

/-! Company block (Table 22-8). -/
def jobState (c : Nat) : Fld := ⟨coBase c, 2, 0⟩
def stopPending (c : Nat) : Fld := ⟨coBase c, 9, 9⟩
def reloadNeeded (c : Nat) : Fld := ⟨coBase c, 10, 10⟩
def intervalValid (c : Nat) : Fld := ⟨coBase c, 39, 39⟩
def lastInterval (c : Nat) : Fld := ⟨coBase c, 47, 40⟩

def scAckMs (c : Nat) : Fld := ⟨coBase c + 0x100, 7, 0⟩
def scStrikeUs (c : Nat) : Fld := ⟨coBase c + 0x100, 15, 8⟩
def scTarget (c : Nat) : Fld := ⟨coBase c + 0x100, 23, 16⟩
def scForced (c : Nat) : Fld := ⟨coBase c + 0x100, 30, 30⟩
def scResult (c : Nat) : Fld := ⟨coBase c + 0x108, 11, 8⟩
def scGoLost (c : Nat) : Fld := ⟨coBase c + 0x108, 12, 12⟩
def scStagedValid (c : Nat) : Fld := ⟨coBase c + 0x108, 14, 14⟩
def scBusy (c : Nat) : Fld := ⟨coBase c + 0x108, 15, 15⟩
def scStaged (c : Nat) : Fld := ⟨coBase c + 0x108, 23, 16⟩
def scCurrent (c : Nat) : Fld := ⟨coBase c + 0x108, 31, 24⟩
def scDiscarded (c : Nat) : Fld := ⟨coBase c + 0x108, 63, 32⟩
def swLcell (c : Nat) : Fld := ⟨coBase c + 0x110, 8, 0⟩
def swField (c : Nat) : Fld := ⟨coBase c + 0x110, 22, 16⟩
def swDropped (c : Nat) : Fld := ⟨coBase c + 0x110, 63, 48⟩

def sjJob (c : Nat) : Fld := ⟨coBase c + 0x200, 15, 0⟩
def sjRemoteCell (c : Nat) : Fld := ⟨coBase c + 0x200, 16, 16⟩
def sjLost (c : Nat) : Fld := ⟨coBase c + 0x200, 30, 30⟩
def sjClash (c : Nat) : Fld := ⟨coBase c + 0x200, 31, 31⟩
def holdHeld (c : Nat) : Fld := ⟨coBase c + 0x208, 0, 0⟩
def holdDevice (c : Nat) : Fld := ⟨coBase c + 0x208, 63, 52⟩
def chGoLost (c : Nat) : Fld := ⟨coBase c + 0x218, 0, 0⟩
def chBadDesc (c : Nat) : Fld := ⟨coBase c + 0x218, 1, 1⟩
def chWaiting (c : Nat) : Fld := ⟨coBase c + 0x218, 15, 8⟩

def energyCo (c : Nat) : Fld := ⟨coBase c + 0x380, 63, 0⟩
def energyProd (c : Nat) : Fld := ⟨coBase c + 0x388, 63, 0⟩
def energyJob (c : Nat) : Fld := ⟨coBase c + 0x390, 63, 0⟩

def encMode (c : Nat) : Fld := ⟨coBase c + 0x400, 1, 0⟩
def encStage (c : Nat) : Fld := ⟨coBase c + 0x400, 13, 2⟩
def encField (c : Nat) : Fld := ⟨coBase c + 0x400, 28, 22⟩
def encPartner (c : Nat) : Fld := ⟨coBase c + 0x400, 63, 52⟩
def encOut (c : Nat) : Fld := ⟨coBase c + 0x408, 47, 0⟩
def encLen (c : Nat) : Fld := ⟨coBase c + 0x410, 39, 0⟩
def esSuspect (c : Nat) : Fld := ⟨coBase c + 0x418, 0, 0⟩
def esStaging (c : Nat) : Fld := ⟨coBase c + 0x418, 1, 1⟩
def esReplaying (c : Nat) : Fld := ⟨coBase c + 0x418, 2, 2⟩
def esCfgLost (c : Nat) : Fld := ⟨coBase c + 0x418, 3, 3⟩
def esWhy (c : Nat) : Fld := ⟨coBase c + 0x418, 15, 8⟩
def esOutcome (c : Nat) : Fld := ⟨coBase c + 0x418, 23, 16⟩
def esStep (c : Nat) : Fld := ⟨coBase c + 0x418, 63, 32⟩
def jrTrips (c : Nat) : Fld := ⟨coBase c + 0x420, 31, 0⟩
def jrSteps (c : Nat) : Fld := ⟨coBase c + 0x420, 63, 32⟩
def jrUnverified (c : Nat) : Fld := ⟨coBase c + 0x428, 15, 0⟩
def jrMismatch (c : Nat) : Fld := ⟨coBase c + 0x428, 27, 16⟩
def jrFalseAlarm (c : Nat) : Fld := ⟨coBase c + 0x428, 39, 28⟩
def jrSuspect (c : Nat) : Fld := ⟨coBase c + 0x428, 51, 40⟩
def jrFlagged (c : Nat) : Fld := ⟨coBase c + 0x428, 63, 52⟩

def gsCgen (c : Nat) : Fld := ⟨coBase c + 0x508, 7, 0⟩
def gsBusy (c : Nat) : Fld := ⟨coBase c + 0x508, 8, 8⟩
def gsResets (c : Nat) : Fld := ⟨coBase c + 0x508, 31, 16⟩
def gsStale (c : Nat) : Fld := ⟨coBase c + 0x508, 63, 32⟩

def cdFy1 (c : Nat) : Fld := ⟨coBase c + 0x800, 18, 16⟩
def cdFy0 (c : Nat) : Fld := ⟨coBase c + 0x800, 22, 20⟩
def cdFx1 (c : Nat) : Fld := ⟨coBase c + 0x800, 27, 24⟩
def cdFx0 (c : Nat) : Fld := ⟨coBase c + 0x800, 31, 28⟩
def cdFunc (c : Nat) : Fld := ⟨coBase c + 0x800, 57, 53⟩
def cdPort (c : Nat) : Fld := ⟨coBase c + 0x800, 59, 58⟩
def cdEn (c : Nat) : Fld := ⟨coBase c + 0x800, 63, 63⟩
def csOpt (c : Nat) : Fld := ⟨coBase c + 0x808, 6, 0⟩
def csHost (c : Nat) : Fld := ⟨coBase c + 0x808, 14, 8⟩
def csChorus (c : Nat) : Fld := ⟨coBase c + 0x808, 22, 16⟩
def csGroups (c : Nat) : Fld := ⟨coBase c + 0x808, 42, 32⟩
def ctDefLost (c : Nat) : Fld := ⟨coBase c + 0x810, 0, 0⟩
def ctShareLost (c : Nat) : Fld := ⟨coBase c + 0x810, 1, 1⟩
def ctReady (c : Nat) : Fld := ⟨coBase c + 0x810, 2, 2⟩
def ctNfields (c : Nat) : Fld := ⟨coBase c + 0x810, 15, 8⟩

/-! Ring block (Tables 12-13 to 12-17). -/
def cbAddr (c : Nat) : Nat := ringBase c
def cbSpan (c : Nat) : Fld := ⟨ringBase c + 8, 3, 0⟩
def cbEn (c : Nat) : Fld := ⟨ringBase c + 8, 31, 31⟩
def feEvent (c k : Nat) : Fld := ⟨ringBase c + 0x10, k, k⟩
def feMask (c : Nat) : Fld := ⟨ringBase c + 0x14, 4, 0⟩
def cmdOff (c r : Nat) : Nat := ringBase c + 0x400 + 16 * (r % 64)
def cmdSize (c r : Nat) : Fld := ⟨cmdOff c r + 8, 23, 19⟩
def cmdCpl (c r : Nat) : Fld := ⟨cmdOff c r + 8, 29, 24⟩
def cmdErr (c r : Nat) : Fld := ⟨cmdOff c r + 8, 30, 30⟩
def cmdEn (c r : Nat) : Fld := ⟨cmdOff c r + 8, 31, 31⟩
def cmdHead (c r : Nat) : Fld := ⟨cmdOff c r + 8, 63, 32⟩
def cplOff (c r : Nat) : Nat := ringBase c + 0x800 + 16 * (r % 64)
def cplImodUs (c r : Nat) : Fld := ⟨cplOff c r + 8, 7, 0⟩
def cplImodCount (c r : Nat) : Fld := ⟨cplOff c r + 8, 15, 8⟩
def cplSize (c r : Nat) : Fld := ⟨cplOff c r + 8, 23, 19⟩
def cplVector (c r : Nat) : Fld := ⟨cplOff c r + 8, 30, 24⟩
def cplEn (c r : Nat) : Fld := ⟨cplOff c r + 8, 31, 31⟩
def cplTail (c r : Nat) : Fld := ⟨cplOff c r + 8, 63, 32⟩
def hwinOff (c n : Nat) : Nat := ringBase c + 0xC00 + 16 * n
def hwinPages (c n : Nat) : Fld := ⟨hwinOff c n + 8, 27, 0⟩
def hwinEn (c n : Nat) : Fld := ⟨hwinOff c n + 8, 63, 63⟩

/-! Field block (Table 22-7). -/
def fiInCo (f : Nat) : Fld := ⟨fieldBase f, 17, 17⟩
def fiCo (f : Nat) : Fld := ⟨fieldBase f, 21, 18⟩
def fcSrc (f : Nat) : Fld := ⟨fieldBase f + 0x430, 1, 1⟩
def fcBusy (f : Nat) : Fld := ⟨fieldBase f + 0x430, 2, 2⟩
def fcLock (f : Nat) : Fld := ⟨fieldBase f + 0x430, 3, 3⟩
def fcFault (f : Nat) : Fld := ⟨fieldBase f + 0x430, 4, 4⟩
def fcSwitches (f : Nat) : Fld := ⟨fieldBase f + 0x430, 15, 8⟩
def fcFreq (f : Nat) : Fld := ⟨fieldBase f + 0x430, 23, 16⟩
def fpTGain (f : Nat) : Fld := ⟨fieldBase f + 0x440, 5, 2⟩
def fpPGain (f : Nat) : Fld := ⟨fieldBase f + 0x440, 13, 6⟩
def fpHoldMax (f : Nat) : Fld := ⟨fieldBase f + 0x440, 19, 14⟩
def fpLim (f : Nat) : Fld := ⟨fieldBase f + 0x440, 28, 20⟩
def fpCeil (f : Nat) : Fld := ⟨fieldBase f + 0x440, 31, 29⟩
def fvRamp (f : Nat) : Fld := ⟨fieldBase f + 0x444, 9, 0⟩
def fvFrac (f : Nat) : Fld := ⟨fieldBase f + 0x444, 23, 16⟩
def fsSensor (f : Nat) : Fld := ⟨fieldBase f + 0x448, 26, 26⟩
def fsLimited (f : Nat) : Fld := ⟨fieldBase f + 0x448, 27, 27⟩
def fsSoft (f : Nat) : Fld := ⟨fieldBase f + 0x448, 28, 28⟩
def fsHard (f : Nat) : Fld := ⟨fieldBase f + 0x448, 29, 29⟩
def fsDomain (f : Nat) : Fld := ⟨fieldBase f + 0x448, 31, 30⟩
def fsVamp (f : Nat) : Fld := ⟨fieldBase f + 0x448, 32, 32⟩
def fsOpReq (f : Nat) : Fld := ⟨fieldBase f + 0x448, 35, 33⟩
def fsOp (f : Nat) : Fld := ⟨fieldBase f + 0x448, 38, 36⟩
def fsHolds (f : Nat) : Fld := ⟨fieldBase f + 0x448, 44, 39⟩
def fsTemp (f : Nat) : Fld := ⟨fieldBase f + 0x448, 54, 45⟩
def fsPower (f : Nat) : Fld := ⟨fieldBase f + 0x448, 63, 55⟩
def vcode (f k : Nat) : Fld := ⟨fieldBase f + 0x450, 8 * k + 7, 8 * k⟩
def rowL (f r : Nat) : Fld := ⟨fieldBase f + 0x460 + 8 * (r / 4), 16 * (r % 4) + 4, 16 * (r % 4)⟩
def rowFusedL (f r : Nat) : Fld := ⟨fieldBase f + 0x460 + 8 * (r / 4), 16 * (r % 4) + 9, 16 * (r % 4) + 5⟩
def rowSpare (f r : Nat) : Fld := ⟨fieldBase f + 0x460 + 8 * (r / 4), 16 * (r % 4) + 10, 16 * (r % 4) + 10⟩
def rowDark (f r : Nat) : Fld := ⟨fieldBase f + 0x460 + 8 * (r / 4), 16 * (r % 4) + 11, 16 * (r % 4) + 11⟩
def rowShadow (f r : Nat) : Fld := ⟨fieldBase f + 0x460 + 8 * (r / 4), 16 * (r % 4) + 12, 16 * (r % 4) + 12⟩
def erLcell (f : Nat) : Fld := ⟨fieldBase f + 0x480, 8, 0⟩
def erUnit (f : Nat) : Fld := ⟨fieldBase f + 0x480, 12, 9⟩
def erFailed (f : Nat) : Fld := ⟨fieldBase f + 0x480, 29, 29⟩
def erBusy (f : Nat) : Fld := ⟨fieldBase f + 0x480, 30, 30⟩
def tcSize (f : Nat) : Fld := ⟨fieldBase f + 0x490, 23, 12⟩
def tcOff (f : Nat) : Fld := ⟨fieldBase f + 0x490, 47, 24⟩
def tcSections (f : Nat) : Fld := ⟨fieldBase f + 0x490, 61, 58⟩
def tcStop (f : Nat) : Fld := ⟨fieldBase f + 0x490, 62, 62⟩
def tcEn (f : Nat) : Fld := ⟨fieldBase f + 0x490, 63, 63⟩
def tsActive (f : Nat) : Fld := ⟨fieldBase f + 0x498, 0, 0⟩
def tsFull (f : Nat) : Fld := ⟨fieldBase f + 0x498, 1, 1⟩
def tsLost (f : Nat) : Fld := ⟨fieldBase f + 0x498, 2, 2⟩
def tsDropped (f : Nat) : Fld := ⟨fieldBase f + 0x498, 31, 16⟩
def tsLines (f : Nat) : Fld := ⟨fieldBase f + 0x498, 63, 32⟩
def rsEn (f : Nat) : Fld := ⟨fieldBase f + 0x420, 0, 0⟩
def rsMode (f : Nat) : Fld := ⟨fieldBase f + 0x420, 2, 1⟩
def rsQsel (f : Nat) : Fld := ⟨fieldBase f + 0x420, 9, 3⟩
def cmScrubEn (f : Nat) : Fld := ⟨fieldBase f + 0x400, 0, 0⟩

/-! Identity and device control (Tables 22-1, 22-6). -/
def idFields : Fld := ⟨0, 19, 16⟩
def idLayers : Fld := ⟨0, 15, 12⟩
def idOptPorts : Fld := ⟨0, 11, 6⟩
def dsValid : Fld := ⟨0x1000, 0, 0⟩
def dsDone : Fld := ⟨0x1000, 1, 1⟩
def dsGhost : Fld := ⟨0x1000, 2, 2⟩
def dsNumLost : Fld := ⟨0x1000, 3, 3⟩
def devNum : Fld := ⟨0x1008, 11, 0⟩
def buStep : Fld := ⟨0x1100, 3, 0⟩
def buQuick : Fld := ⟨0x1100, 4, 4⟩
def buRetest : Fld := ⟨0x1100, 5, 5⟩
def buEdgeLost : Fld := ⟨0x1100, 6, 6⟩
def buFailStep : Fld := ⟨0x1100, 15, 8⟩
def buElapsed : Fld := ⟨0x1100, 31, 16⟩
def buDark : Fld := ⟨0x1100, 39, 32⟩
def buShadowed : Fld := ⟨0x1100, 47, 40⟩
def quickEn : Fld := ⟨0x1108, 0, 0⟩
def hsEntries : Fld := ⟨0x1110, 10, 0⟩
def hsFullOnly : Fld := ⟨0x1110, 14, 14⟩
def hsUncorr : Fld := ⟨0x1110, 15, 15⟩
def hsQuicks : Fld := ⟨0x1110, 31, 16⟩
def hsAge : Fld := ⟨0x1110, 63, 32⟩
def rtGhost : Fld := ⟨0x1208, 0, 0⟩
def rtChipBusy : Fld := ⟨0x1208, 1, 1⟩
def rtBooting : Fld := ⟨0x1208, 2, 2⟩
def rtRomLoop : Fld := ⟨0x1208, 3, 3⟩
def rtRefused : Fld := ⟨0x1208, 4, 4⟩
def rtExitWait : Fld := ⟨0x1208, 5, 5⟩
def rtCause : Fld := ⟨0x1208, 15, 12⟩
def rtChipResets : Fld := ⟨0x1208, 31, 24⟩
def rtPromResets : Fld := ⟨0x1208, 39, 32⟩
def rtDgen : Fld := ⟨0x1208, 47, 40⟩
def rtStale : Fld := ⟨0x1208, 63, 48⟩
def strapStat : Fld := ⟨0x1300, 31, 0⟩
def measOff (k : Nat) : Nat := 0x1800 + 0x40 * k
def miBackup (k : Nat) : Fld := ⟨measOff k + 0x30, 6, 6⟩
def miValid (k : Nat) : Fld := ⟨measOff k + 0x30, 7, 7⟩
def miSvn (k : Nat) : Fld := ⟨measOff k + 0x30, 15, 8⟩
def miChanges (k : Nat) : Fld := ⟨measOff k + 0x30, 63, 32⟩

/-! Clocks, power (Tables 14-5 to 14-7, 15-13 to 15-15). -/
def ckTrimSat : Fld := ⟨0x10000, 6, 6⟩
def ckMode : Fld := ⟨0x10000, 7, 7⟩
def ckDelay : Fld := ⟨0x10000, 9, 8⟩
def ckPort : Fld := ⟨0x10000, 11, 10⟩
def ckAttempts : Fld := ⟨0x10000, 15, 12⟩
def ckCode : Fld := ⟨0x10000, 23, 16⟩
def ckTrim : Fld := ⟨0x10000, 31, 24⟩
def ckEvent (k : Nat) : Fld := ⟨0x10008, k, k⟩
def fmWin : Fld := ⟨0x10010, 11, 8⟩
def fmSrc : Fld := ⟨0x10010, 23, 16⟩
def frCount : Fld := ⟨0x10018, 47, 0⟩
def frNoEdge : Fld := ⟨0x10018, 61, 61⟩
def frBusy : Fld := ⟨0x10018, 62, 62⟩
def frValid : Fld := ⟨0x10018, 63, 63⟩
def psLimiting : Fld := ⟨0x20000, 0, 0⟩
def psFieldsOn : Fld := ⟨0x20000, 15, 8⟩
def psOutlet : Fld := ⟨0x20000, 25, 16⟩
def psInlet : Fld := ⟨0x20000, 35, 26⟩
def psVin : Fld := ⟨0x20000, 47, 36⟩
def psPower : Fld := ⟨0x20000, 63, 48⟩
def modLim : Fld := ⟨0x20008, 15, 0⟩
def pwEvent (k : Nat) : Fld := ⟨0x20010, k, k⟩
def energyModule : Fld := ⟨0x20018, 63, 0⟩
def energyShared : Fld := ⟨0x20020, 63, 0⟩

/-! Shedin and stratum blocks (Tables 11-12 to 11-15, 08-8 to 08-10). -/
def injEn : Fld := ⟨shBase, 0, 0⟩
def injEpoch : Fld := ⟨shBase, 1, 1⟩
def shDraining : Fld := ⟨shBase + 8, 0, 0⟩
def flipLost : Fld := ⟨shBase + 8, 2, 2⟩
def tableLost : Fld := ⟨shBase + 8, 3, 3⟩
def drainTally : Fld := ⟨shBase + 8, 31, 16⟩
def tagsBusy : Fld := ⟨shBase + 8, 63, 45⟩
def portLanes (p : Nat) : Fld := ⟨shBase + 0x100 + 8 * p, 16, 0⟩
def portLoad (p : Nat) : Fld := ⟨shBase + 0x100 + 8 * p, 26, 24⟩
def portSpare (p : Nat) : Fld := ⟨shBase + 0x100 + 8 * p, 27, 27⟩
def portState (p : Nat) : Fld := ⟨shBase + 0x100 + 8 * p, 30, 28⟩
def portEn (p : Nat) : Fld := ⟨shBase + 0x300 + 4 * p, 0, 0⟩
def routeOff (b : Bool) (d : Nat) : Nat := shBase + 0x10000 + (if b then 0x8000 else 0) + 8 * d
def stratKey : Fld := ⟨0x200000, 63, 0⟩
def stScrubEn : Fld := ⟨0x200008, 0, 0⟩
def stHotMark : Fld := ⟨0x200008, 22, 16⟩
def stThrottle : Fld := ⟨0x200008, 24, 24⟩
def stHotCap : Fld := ⟨0x200008, 27, 25⟩
def sfOff (f : Nat) : Nat := 0x200100 + 8 * f
def sfState (f : Nat) : Fld := ⟨sfOff f, 2, 0⟩
def sfHot (f ch : Nat) : Fld := ⟨sfOff (f % 72), 16 + ch % 16, 16 + ch % 16⟩

/-! Counters and error log (Tables 20-5, 20-6, 17-11, 17-12). -/
def snBusy (g : Nat) : Fld := ⟨cntBase + 8 + 16 * g, 0, 0⟩
def snPending (g : Nat) : Fld := ⟨cntBase + 8 + 16 * g, 1, 1⟩
def snLost (g : Nat) : Fld := ⟨cntBase + 8 + 16 * g, 2, 2⟩
def snClear (g : Nat) : Fld := ⟨cntBase + 16 * g, 30, 30⟩
def cselOff (g s : Nat) : Nat := cntBase + 0x1000 + 0x80 * g + 8 * s
def hdrOff (g : Nat) : Nat := cntBase + 0x2000 + 0x100 * g
def wmOff (n : Nat) : Nat := cntBase + 0x3000 + 0x20 * n
def wmSum : Fld := ⟨cntBase + 0x3800, 63, 0⟩
def wmLost : Fld := ⟨cntBase + 0x3808, 0, 0⟩
def hotOff (f ch : Nat) : Nat := cntBase + 0x40000 + (f * 16 + ch) * 16
def hotSum (f : Nat) : Fld := if f < 64 then ⟨cntBase + 0x3810, f, f⟩ else ⟨cntBase + 0x3818, f - 64, f - 64⟩
def telEn : Fld := ⟨cntBase + 0x3900, 63, 63⟩
def telNotices : Fld := ⟨cntBase + 0x3900, 62, 62⟩
def telGroups : Fld := ⟨cntBase + 0x3900, 47, 32⟩
def telPort : Fld := ⟨cntBase + 0x3900, 31, 16⟩
def telSent : Fld := ⟨cntBase + 0x3908, 63, 32⟩
def telNotSent : Fld := ⟨cntBase + 0x3908, 31, 0⟩
def errEn : Fld := ⟨errBase, 31, 31⟩
def errPort : Fld := ⟨errBase, 15, 0⟩
def errSeq : Fld := ⟨errBase + 0x20, 31, 0⟩
def errOver : Fld := ⟨errBase + 0x20, 63, 32⟩
def errNotSent : Fld := ⟨errBase + 0x28, 31, 0⟩
def errCorr : Fld := ⟨errBase + 0x30, 63, 0⟩
def errSum (k : Nat) : Fld := ⟨errBase + 0x38, 16 * k + 15, 16 * k⟩
def ringEntry (e : Nat) : Nat := errBase + 0x10000 + 64 * e
def rhLost : Fld := ⟨errBase + 0x100, 33, 33⟩
def rhRunning : Fld := ⟨errBase + 0x100, 32, 32⟩
def rhOverdue : Fld := ⟨errBase + 0x100, 31, 16⟩
def rhMarked : Fld := ⟨errBase + 0x100, 15, 0⟩
def rhOff (i : Nat) : Nat := errBase + 0x1000 + 8 * i

end Sys2Proof.Machine
end

