-- ==== Sys2Proof/Machine/Ops.lean ====
section
/-! DEFINITION. The named operations over the module: registers and their fields, the part's facilities, fields,
cells by their logical number, companies, counters, time, free values, what leaves the module. -/

namespace Sys2Proof.Machine

/-! Registers. -/

/-- The register at a BAR0 offset. -/
def Mod.reg (m : Mod) (o : Nat) : Word := mget (resetVal o) m.regs o

def Mod.setReg (m : Mod) (o : Nat) (v : Word) : Mod := { m with regs := mset (resetVal o) m.regs o v }

/-- A field of a register. -/
def Mod.get (m : Mod) (f : Fld) : Nat := bits (m.reg f.off) f.hi f.lo

def Mod.put (m : Mod) (f : Fld) (v : Nat) : Mod := m.setReg f.off (setBits (m.reg f.off) f.hi f.lo v)

def Mod.isSet (m : Mod) (f : Fld) : Bool := decide (m.get f ≠ 0)

/-- A count that saturates at the field's largest value. -/
def Mod.addSat (m : Mod) (f : Fld) (n : Nat) : Mod := m.put f (Nat.min (2 ^ (f.hi + 1 - f.lo) - 1) (m.get f + n))

/-- A count that wraps. -/
def Mod.addWrap (m : Mod) (f : Fld) (n : Nat) : Mod := m.put f (m.get f + n)

/-- A register back at its reset value. -/
def Mod.resetReg (m : Mod) (o : Nat) : Mod := { m with regs := merase m.regs o }

/-! The part's facilities (R1, R2, R454). -/

/-- Whether a field has compute. -/
def Mod.present (m : Mod) (f : Nat) : Bool := decide (f < 72 ∧ (m.get idFields = 0 ∨ f % 9 ≠ 8))

/-- Whether an optical port is not fused off. -/
def Mod.portFitted (m : Mod) (p : Nat) : Bool := decide (p < 48 ∧ (m.get idOptPorts = 48 ∨ (p % 12 ≠ 0 ∧ p % 12 ≠ 11)))

def Mod.layers (m : Mod) : Nat := m.get idLayers

/-- Bytes of a field slot (R181). -/
def Mod.slotSize (m : Mod) : Nat := 2 ^ (33 + m.layers)

/-! Fields. -/
def Mod.field (m : Mod) (f : Nat) : Field := mget .zero m.fields f

def Mod.setField (m : Mod) (f : Nat) (x : Field) : Mod := { m with fields := mset .zero m.fields f x }

/-- Whether a field's compute domain is on (Table 15-11). -/
def Mod.fieldOn (m : Mod) (f : Nat) : Bool := decide (m.get (fsDomain f) = 2)

/-- The company a field lies in (Table 22-2). -/
def Mod.coOf (m : Mod) (f : Nat) : Option Nat := if m.isSet (fiInCo f) then some (m.get (fiCo f)) else none

def allFields : List Nat := List.range 72

/-! Companies. -/
def Mod.co (m : Mod) (c : Nat) : Company := mget .zero m.cos c

def Mod.setCo (m : Mod) (c : Nat) (x : Company) : Mod := { m with cos := mset .zero m.cos c x }

def Mod.modCo (m : Mod) (c : Nat) (f : Company → Company) : Mod := m.setCo c (f (m.co c))

/-- Whether a field lies in the rectangle that COMPANY_DEF names (R305). -/
def Mod.inRect (m : Mod) (c f : Nat) : Bool :=
  decide (m.get (cdFx0 c) ≤ f % 9 ∧ f % 9 ≤ m.get (cdFx1 c) ∧ m.get (cdFy0 c) ≤ f / 9 ∧ f / 9 ≤ m.get (cdFy1 c))

/-- The fields of an enabled company, in increasing number. -/
def Mod.coFields (m : Mod) (c : Nat) : List Nat :=
  if m.isSet (cdEn c) then allFields.filter (m.inRect c) else []

def allCos : List Nat := List.range 16

/-- The position of a field among its company's (R181). -/
def Mod.slotOf (m : Mod) (c f : Nat) : Nat := ((m.coFields c).filter (fun g => decide (g < f))).length

/-- The company's stratum capacity (R23). -/
def Mod.capacity (m : Mod) (c : Nat) : Nat := (m.coFields c).length * m.slotSize

/-! JOB_STAT.STATE (Table 12-18). -/
def stEmpty : Nat := 0
def stLoading : Nat := 1
def stLoaded : Nat := 2
def stRunning : Nat := 3
def stHeld : Nat := 4
def stUnloading : Nat := 5

def Mod.coState (m : Mod) (c : Nat) : Nat := m.get (jobState c)

def Mod.setCoState (m : Mod) (c s : Nat) : Mod := m.put (jobState c) s

/-- Whether a job runs or is held. -/
def Mod.hasJob (m : Mod) (c : Nat) : Bool := decide (m.coState c = stRunning ∨ m.coState c = stHeld)

/-! Cells. -/

/-- Whether a field-row is dark or shadowed (R362, R363). -/
def Mod.rowOut (m : Mod) (f r : Nat) : Bool := m.isSet (rowDark f r) || m.isSet (rowShadow f r)

/-- The physical column of a logical one (R33). -/
def Mod.pcol (m : Mod) (f r lc : Nat) : Nat := if lc < m.get (rowL f r) then lc else lc + 1

/-- The physical place of a logical cell. -/
def Mod.place (m : Mod) (f l : Nat) : Nat := f * 400 + l / 24 * 25 + m.pcol f (l / 24) (l % 24)

def Mod.cell (m : Mod) (f l : Nat) : Cell := mget .zero m.cells (m.place f l)

def Mod.setCell (m : Mod) (f l : Nat) (c : Cell) : Mod := { m with cells := mset .zero m.cells (m.place f l) c }

def Mod.modCell (m : Mod) (f l : Nat) (g : Cell → Cell) : Mod := m.setCell f l (g (m.cell f l))

/-- Whether a logical cell exists: its field has compute and its row is in service. -/
def Mod.cellOk (m : Mod) (f l : Nat) : Bool := m.present f && decide (l < 384) && !m.rowOut f (l / 24)

/-- Whether a cell's engines run: their domain is on and not draining. -/
def Mod.cellRuns (m : Mod) (f l : Nat) : Bool := m.fieldOn f && !(m.field f).drainCompute && m.cellOk f l

/-- Whether a company's job is held (R273). -/
def Mod.coHeld (m : Mod) (o : Option Nat) : Bool :=
  match o with
  | some c => m.isSet (holdHeld c)
  | none => false

/-- Whether the scene change of a field's company has asked the field's cells to acknowledge (R169). -/
def Mod.sceneAsked (m : Mod) (f : Nat) : Bool :=
  match m.coOf f with
  | none => false
  | some c =>
    match (m.co c).change with
    | none => false
    | some g => decide (g.phase ≠ 0) && shas g.asked f

/-- What a cell's engines see of the module. -/
def Mod.env (m : Mod) (f l : Nat) : Env :=
  { field := f, lcell := l, device := m.get devNum, cycle := (m.field f).cycle
    matrixCtrl := m.reg (fieldBase f + 0x410), co := ((m.coOf f).getD 0), hasCo := (m.coOf f).isSome
    runs := m.cellRuns f l, sceneReq := m.sceneAsked f }

/-! Counters (R419), time, free values, output. -/

/-- The key of an event counter (Table 20-1). -/
def ctrKey (kind code f l sub : Nat) : Nat := (((kind * 256 + code) * 128 + f) * 512 + l) * 64 + sub

def Mod.count (m : Mod) (kind code f l sub n : Nat) : Mod :=
  let k := ctrKey kind code f l sub
  { m with ctr := mset 0 m.ctr k (mget 0 m.ctr k + BitVec.ofNat 64 n) }

/-- The module's time base (R385): PTP time where it is locked, free-running from power-good otherwise. -/
def Mod.time (m : Mod) : Nat := match m.ptp with | some t => t + m.now | none => m.now

def Mod.timeValid (m : Mod) : Bool := m.ptp.isSome

/-- A value the manual leaves open (log entry 2). -/
def Mod.draw (m : Mod) : Word × Mod := (Config.freeValue m.fresh, { m with fresh := m.fresh + 1 })

def Mod.emit (m : Mod) (o : Output) : Mod := { m with out := m.out ++ [o] }

/-- Every one of a list of things done in turn. -/
def Mod.each {α : Type} (m : Mod) (l : List α) (f : Mod → α → Mod) : Mod := l.foldl f m

/-- Whether ghost light is in force (Table 18-8). -/
def Mod.ghost (m : Mod) : Bool := m.isSet rtGhost

/-- Whether Prompter answers: it runs its measured firmware (R18, R398). -/
def Mod.prompterUp (m : Mod) : Bool := decide (m.prompter = 2)

/-! Exits of the meanings. -/

/-- A command whose effect is on the module. -/
def onMod (s : State) (f : Mod → Mod) : Host.Outcome State Fault Refusal := .next { s with m := f s.m }

/-- A command at a field that the part may not have: a fused-off one does nothing (R1, R458). -/
def onField (s : State) (f : Nat) (g : Mod → Mod) : Host.Outcome State Fault Refusal :=
  if s.m.present f then onMod s g else .next s

/-- A command at an optical port that the part may not have: a fused-off one does nothing (R1). -/
def onPort (s : State) (p : Nat) (g : Mod → Mod) : Host.Outcome State Fault Refusal :=
  if s.m.portFitted p then onMod s g else .next s

end Sys2Proof.Machine
end

