-- ==== Sys2Proof/Machine/Records.lean ====
section
/-! DEFINITION. Error records (R385 to R388), rehearsal marks (R379, R380) and defect entries (R357). -/

namespace Sys2Proof.Machine

/-- What an event says of itself in its record (Table 17-6): severity, class, UNIT_KIND, WHERE, OPERATION, CODE, company,
DETAIL. -/
structure Rec where
  sev : Nat
  cls : Nat
  kind : Nat
  place : Nat
  opn : Nat
  code : Nat
  co : Option Nat
  detail : Nat
deriving DecidableEq, Repr

/-- WHERE of a cell unit (Table 17-6). -/
def whereCell (m : Mod) (f l unit : Nat) : Nat :=
  f + l * 2 ^ 7 + unit * 2 ^ 16 + m.pcol f (l / 24) (l % 24) * 2 ^ 20

/-- The supply a record names, in mV: the field's, the input for the module, 0 for ports (log entry 13). -/
def recVolt (m : Mod) (r : Rec) : Nat :=
  if r.kind = 6 then m.get psVin * 20
  else if r.kind = 3 ∨ r.kind = 4 then 0
  else
    let f := r.place % 128
    450 + m.get (vcode f (m.get (fsOp f))) * 5 / 2

/-- The temperature a record names: the field's, the coolant inlet's for the module and ports (log entry 13). -/
def recTemp (m : Mod) (r : Rec) : Nat :=
  if r.kind = 6 ∨ r.kind = 3 ∨ r.kind = 4 then m.get psInlet else m.get (fsTemp (r.place % 128))

/-- The 64 bytes of a record (Table 17-6). -/
def recBytes (m : Mod) (r : Rec) (merged : Bool) (n : Nat) : List Byte :=
  toLe (m.get errSeq) 4 ++ toLe r.sev 1 ++ toLe r.cls 1 ++ toLe (ofBool m.timeValid + 2 * ofBool merged) 1 ++ toLe r.kind 1 ++
    toLe m.time 8 ++ toLe r.place 8 ++ toLe r.opn 2 ++ toLe r.code 2 ++
    toLe (match r.co with | some c => c | none => 255) 1 ++ toLe (m.get rtDgen) 1 ++
    toLe (match r.co with | some c => m.get (gsCgen c) | none => 0) 1 ++ ([0] : List Byte) ++
    toLe (match r.co with | some c => m.get (sjJob c) | none => 0) 2 ++ ([0, 0] : List Byte) ++
    toLe (match r.co with | some c => (m.co c).loadNo | none => 0) 4 ++
    toLe (recTemp m r) 2 ++ toLe (recVolt m r) 2 ++ toLe n 4 ++ toLe r.detail 16

/-- 64-bit registers written from bytes. -/
def Mod.setBytes (m : Mod) (o : Nat) (bs : List Byte) : Mod :=
  m.each (List.range (bs.length / 8)) (fun m i => m.setReg (o + 8 * i) (BitVec.ofNat 64 (le bs (8 * i) 8)))

/-- ERR_SUM_CORR and ERR_SUM (Table 17-11). -/
def Mod.sumError (m : Mod) (sev n : Nat) : Mod :=
  match sev with
  | 0 => m.addSat (errSum 0) 1
  | 1 => m.addWrap errCorr n
  | 2 => m.addSat (errSum 1) 1
  | 3 => m.addSat (errSum 2) 1
  | _ => m.addSat (errSum 3) 1

/-- A record of `n` events written to the ring with its COUNT (R385, R387); severity 3 or 4 asserts ALERT_N (R443), and an
uncorrectable memory error is noted in the health record (R356). -/
def Mod.putRecord (m : Mod) (r : Rec) (merged : Bool) (n cnt : Nat) : Mod :=
  let q := m.get errSeq
  let m1 := m.setBytes (ringEntry (q % 4096)) (recBytes m r merged cnt)
  let m2 := if 4096 ≤ q then m1.addSat errOver 1 else m1
  let m3 := (m2.addWrap errSeq 1).sumError r.sev n
  let m4 := { m3 with unsent := m3.unsent ++ [q], alert := m3.alert || decide (3 ≤ r.sev) }
  if r.sev = 3 ∧ (r.cls = 2 ∨ (r.cls = 3 ∧ r.place / 2 ^ 16 % 16 < 6)) then
    { m4 with health := { m4.health with uncorr := true } }.put hsUncorr 1
  else m4

/-- A record whose COUNT is its events. -/
def Mod.writeRecord (m : Mod) (r : Rec) (merged : Bool) (n : Nat) : Mod := m.putRecord r merged n n

/-- An event recorded: classes 0x01, 0x03 and 0x04 of one WHERE are merged (R386). -/
def Mod.record (m : Mod) (r : Rec) : Mod :=
  if r.cls = 1 ∨ r.cls = 3 ∨ r.cls = 4 then
    let k := (r.cls * 8 + r.kind) * 2 ^ 64 + r.place
    let e := mget (0, 0) m.merges k
    if e.1 = 0 ∨ e.1 + 1000000000 ≤ m.now + 1 then
      { m.writeRecord r (decide (e.1 ≠ 0)) (e.2 + 1) with merges := mset (0, 0) m.merges k (m.now + 1, 0) }
    else { m with merges := mset (0, 0) m.merges k (e.1, e.2 + 1) }
  else m.writeRecord r false 1

/-- An event whose severity the manual does not give: SEVERITY is a free value (log entry 2). -/
def Mod.recordFree (m : Mod) (r : Rec) : Mod := let d := m.draw; d.2.record { r with sev := d.1.toNat % 5 }

/-- A record of a class 0x0B event (Table 18-11); COUNT is the reset's wait for a generation in microseconds, where it waited `aged` ns
(R407). -/
def Mod.resetRecord (m : Mod) (kind cause before after : Nat) (co : Option Nat) (stopped aged : Nat) : Mod :=
  let li := match co with
    | some c => m.get (lastInterval c) * 2 ^ 32 + m.get (intervalValid c) * 2 ^ 40
    | none => 0
  let d := m.draw
  d.2.putRecord ⟨d.1.toNat % 5, 0x0B, 6, 0, 8 * 256, 0, co, kind + cause % 256 * 2 ^ 8 + before % 256 * 2 ^ 16 + after % 256 * 2 ^ 24 +
    li + stopped % 2 ^ 32 * 2 ^ 64⟩ false 1 (if aged = 0 then 1 else ceilDiv aged 1000)

/-- Whether a physical cell is already marked. -/
def Mod.marked (m : Mod) (f l pcol : Nat) : Bool :=
  (List.range 256).any (fun i =>
    let w := m.reg (rhOff i)
    bit w 63 && decide (bits w 56 50 = f ∧ bits w 49 41 / 24 = l / 24 ∧ bits w 40 36 = pcol))

/-- The first free entry of REH_LIST. -/
def Mod.freeMark (m : Mod) : Option Nat := (List.range 256).find? (fun i => !bit (m.reg (rhOff i)) 63)

/-- A cell marked for rehearsal with a reason (R379); log entry 14. -/
def Mod.mark (m : Mod) (f l reason : Nat) : Mod :=
  let pc := m.pcol f (l / 24) (l % 24)
  if m.marked f l pc then m
  else
    match m.freeMark with
    | none => (m.put rhLost 1).record ⟨3, 7, 1, whereCell m f l 0, 8 * 256, 0, m.coOf f, 5 + reason * 2 ^ 8⟩
    | some i =>
      let noCo := match m.coOf f with | some _ => 0 | none => 1
      let w := 2 ^ 63 + noCo * 2 ^ 61 + (m.coOf f).getD 0 * 2 ^ 57 + f * 2 ^ 50 + l * 2 ^ 41 + pc * 2 ^ 36 + reason % 16 * 2 ^ 32 +
        m.time / 1000000000 % 2 ^ 32
      let m := (m.setReg (rhOff i) (BitVec.ofNat 64 w)).put rhMarked (m.get rhMarked + 1)
      m.recordFree ⟨0, 7, 1, whereCell m f l 0, 8 * 256, 0, m.coOf f, 1 + reason * 2 ^ 8⟩

/-- An entry of REH_LIST taken out. -/
def Mod.unmark (m : Mod) (i : Nat) : Mod :=
  let od := bits (m.reg (rhOff i)) 62 62
  ((m.setReg (rhOff i) 0).put rhMarked (m.get rhMarked - 1)).put rhOverdue (m.get rhOverdue - od)

/-- A defect entry written (R357): a record that is full marks the module for full bring-up only and takes no more. -/
def Mod.addDefect (m : Mod) (d : Defect) : Mod :=
  if 1024 ≤ m.health.entries.length then { m with health := { m.health with fullOnly := true } }.put hsFullOnly 1
  else
    let h := { m.health with entries := m.health.entries ++ [d], added := true, fullOnly := decide (1023 ≤ m.health.entries.length) }
    ({ m with health := h }.put hsEntries h.entries.length).put hsFullOnly (ofBool h.fullOnly)

end Sys2Proof.Machine
end

