-- ==== Sys2Proof/Machine/Rings.lean ====
section
/-! DEFINITION. The ring unit (R282 to R292): host accesses of a company, FUNC_EVENTS, polls, cue reads, the cue a
ring holds, completion entries, messages. -/

namespace Sys2Proof.Machine

/-! The company's function (R281, R308, R463). -/
def Mod.port (m : Mod) (c : Nat) : Nat := m.get (cdPort c)
def Mod.func (m : Mod) (c : Nat) : Nat := m.get (cdFunc c)

/-- Whether SR-IOV enables a function of a host port; the physical function always is. -/
def Mod.vfOn (m : Mod) (hp fn : Nat) : Bool := decide (fn ≤ mget 0 m.numVfs hp)

/-- Whether a host port's link can be up: its PERSTp_N is high, its edge block in service and its clocks run (R364, R437, Table
14-3). -/
def Mod.portLink (m : Mod) (hp : Nat) : Bool := !shas m.perstLow hp && !shas m.hostOut hp && !shas m.linkDown hp && !m.refclkOut

/-- Whether the module reaches host memory for a company: its function is enabled, its port's link up, and, in ghost
light, it is port 0's physical function (R364, R405, R437, R463). -/
def Mod.hostUp (m : Mod) (c : Nat) : Bool :=
  m.isSet (cdEn c) && m.vfOn (m.port c) (m.func c) && m.portLink (m.port c) &&
    (!m.ghost || decide (m.port c = 0 ∧ m.func c = 0))

def Mod.hostWrite (m : Mod) (c : Nat) (a : Word) (bs : List Byte) : Mod := m.emit (.hostWrite (m.port c) (m.func c) a bs)
/-- An event of the company's host port counted (Table 20-1, KIND 10). -/
def Mod.countHost (m : Mod) (c code n : Nat) : Mod := m.count 10 code (m.port c) 0 0 n

/-! The MSI-X tables (R280, R288), laid out as PCIe gives (log entry 47). -/

/-- The key of a vector of a function of a host port. -/
def msixKey (hp fn v : Nat) : Nat := (hp * 17 + fn) * 65 + v

/-- Data and vector control of a vector no one has written: masked. -/
def msixReset : Word := 0x100000000#64

def Mod.msixWord (m : Mod) (k : Nat) : Word := mget msixReset m.msixCtl k

def Mod.vectorMasked (m : Mod) (k : Nat) : Bool := bit (m.msixWord k) 32

/-- A vector's message sent: its data written to its address. -/
def Mod.sendVector (m : Mod) (hp fn v : Nat) : Mod :=
  let k := msixKey hp fn v
  (m.count 10 5 hp 0 0 1).emit (.msix hp fn v (mget 0 m.msixAddr k) ((m.msixWord k).setWidth 32))

/-- The tables and pending bits of a host port's functions that a condition names as PCIe resets them. -/
def Mod.msixClear (m : Mod) (hp : Nat) (p : Nat → Bool) : Mod :=
  let keep := fun (k : Nat) => !(decide (k / 65 / 17 = hp) && p (k / 65 % 17))
  { m with
    msixAddr := m.msixAddr.filter (fun e => keep e.1), msixCtl := m.msixCtl.filter (fun e => keep e.1), msixPend := m.msixPend.filter keep }

def Mod.hostRead (m : Mod) (c : Nat) (a : Word) (n : Nat) : Mod := m.emit (.hostRead (m.port c) (m.func c) a n)

/-- A FUNC_EVENTS bit set; vector 0 is due where it was 0 and is not masked (R288). -/
def Mod.event (m : Mod) (c k : Nat) : Mod :=
  if m.isSet (feEvent c k) then m
  else
    let m' := m.put (feEvent c k) 1
    if m.get (feMask c) / 2 ^ k % 2 = 0 then m'.modCo c (fun x => { x with evMsg := true }) else m'

def evCbFault : Nat := 0
def evRingErr : Nat := 1
def evCfgLost : Nat := 2
def evHeld : Nat := 3
def evInterval : Nat := 4

/-! Rings. -/
def Mod.ring (m : Mod) (c r : Nat) : CmdRing := mget .zero (m.co c).rings r
def Mod.setRing (m : Mod) (c r : Nat) (x : CmdRing) : Mod := m.modCo c (fun k => { k with rings := mset .zero k.rings r x })
def Mod.cpl (m : Mod) (c r : Nat) : CplRing := mget .zero (m.co c).cpls r
def Mod.setCpl (m : Mod) (c r : Nat) (x : CplRing) : Mod := m.modCo c (fun k => { k with cpls := mset .zero k.cpls r x })

def allRings : List Nat := List.range 64

/-- The address in a base register: bits [63:12]. -/
def pageAddr (w : Word) : Word := (w >>> 12) <<< 12

def Mod.cmdLen (m : Mod) (c r : Nat) : Nat := 2 ^ m.get (cmdSize c r)
def Mod.cplLen (m : Mod) (c r : Nat) : Nat := 2 ^ m.get (cplSize c r)

/-- Whether a completion ring has a free slot (R287). -/
def Mod.cplRoom (m : Mod) (c k : Nat) : Bool :=
  let q := m.cpl c k
  decide ((m.get (cplTail c k) + q.reserved + (2 ^ 32 - q.head % 2 ^ 32)) % 2 ^ 32 < m.cplLen c k)

/-- A completion entry's first 31 bytes, without PHASE (Table 12-5). -/
def entryBytes (m : Mod) (c r index op status : Nat) (user info : Word) : List Byte :=
  toLe index 4 ++ toLe r 1 ++ toLe op 1 ++ toLe status 2 ++ toLe user.toNat 8 ++ toLe info.toNat 8 ++
    toLe (m.get (cmdHead c r)) 4 ++ toLe (m.get (gsCgen c)) 1 ++ toLe 0 2

/-- A completion entry written in two posted writes with its PHASE (R287, R288). -/
def Mod.putEntry (m : Mod) (c k : Nat) (bs : List Byte) (irq : Bool) : Mod :=
  let j := m.get (cplTail c k)
  let n := m.cplLen c k
  let a := pageAddr (m.reg (cplOff c k)) + BitVec.ofNat 64 (j % n * 32)
  let phase := toLe ((j / n + 1) % 2 * 128) 1
  let m := (m.hostWrite c a (bs.take 24)).hostWrite c (a + 24) (bs.drop 24 ++ phase)
  let q := m.cpl c k
  ((m.addWrap (cplTail c k) 1).countHost c 4 1).setCpl c k { q with unsignalled := q.unsignalled + ofBool irq }

/-- A cue's fields (Table 12-2). -/
def cueOp (b : List Byte) : Nat := le b 0 1
def cueIrq (b : List Byte) : Bool := decide (le b 1 1 % 2 = 1)
def cueUser (b : List Byte) : Word := BitVec.ofNat 64 (le b 8 8)

/-- Whether the common part of a cue has a non-zero reserved bit, or a byte of its operands outside the given ranges
(offset among the operands, length) is not zero (R289). -/
def cueBad (b : List Byte) (used : List (Nat × Nat)) : Bool :=
  decide (2 ≤ le b 1 1) || decide (le b 2 6 ≠ 0) ||
    (List.range 48).any (fun i => decide (le b (16 + i) 1 ≠ 0) && !used.any (fun u => decide (u.1 ≤ i ∧ i < u.1 + u.2)))

/-- A begun cue dropped with no completion, its slot no longer reserved (R437). -/
def Mod.dropCue (m : Mod) (c r : Nat) : Mod :=
  let x := m.ring c r
  let k := x.dest
  let y := m.cpl c k
  if x.cur.isSome then (m.setRing c r { x with cur := none }).setCpl c k { y with reserved := y.reserved - 1 } else m

/-- The overrun completion of a ring, once the begun cue has completed and a slot is free (R286). -/
def Mod.overrunOut (m : Mod) (c r : Nat) : Mod :=
  let x := m.ring c r
  let k := m.get (cmdCpl c r)
  match x.overrun, x.cur with
  | some i, none =>
    if m.hostUp c && m.cplRoom c k then (m.putEntry c k (entryBytes m c r i 0 0x108 0 0) true).setRing c r { x with overrun := none } else m
  | _, _ => m

/-- The begun cue of a ring completed (R286, R287): HEAD advances, the entry is written into its reserved slot; where the function is
not reached it is dropped, and nothing is written (R437, R463). -/
def Mod.finishCue (m : Mod) (c r status : Nat) (info : Word) : Mod :=
  if !m.hostUp c then m.dropCue c r else
  let x := m.ring c r
  match x.cur with
  | none => m
  | some q =>
    let k := x.dest
    let b := q.bytes.getD []
    let m := (m.setRing c r { x with cur := none }).addWrap (cmdHead c r) 1
    let y := m.cpl c k
    let m := m.setCpl c k { y with reserved := y.reserved - 1 }
    let irq := match q.bytes with | some b => cueIrq b | none => true
    (m.putEntry c k (entryBytes m c r q.index (cueOp b) status (cueUser b) info) irq).overrunOut c r

/-- Whether a company's cues wait for a partition reset to end (R395). -/
def Mod.cuesWait (m : Mod) (c : Nat) : Bool :=
  match (m.co c).reset with
  | some r => decide (r.level = 3)
  | none => false

/-- The next cue of a ring begun: it needs the ring in service and enabled, no cue begun, a free completion slot, and, while the
function is reached, its slot reserved (R287, R290, R395, R405). -/
def Mod.takeCue (m : Mod) (c r : Nat) : Option (Cue × Mod) :=
  let x := m.ring c r
  let k := m.get (cmdCpl c r)
  match x.cur, x.cues with
  | none, q :: qs =>
    if m.isSet (cmdEn c r) && m.hostUp c && m.cplRoom c k && !m.ghost && !m.cuesWait c then
      let y := m.cpl c k
      some (q, (m.setRing c r { x with cur := some q, cues := qs, dest := k }).setCpl c k { y with reserved := y.reserved + 1 })
    else none
  | _, _ => none

/-- Whether a cue completes by itself: its read failed (R292), or its OP is reserved (R289). -/
def cueSelf (q : Cue) : Option Nat :=
  match q.bytes with
  | none => some 0x103
  | some b => if cueOp b = 0 ∨ 7 < cueOp b then some 0x101 else none

/-- The cues at the front of a ring that complete by themselves (R289, R292), in order. -/
def Mod.advance (m : Mod) (c r : Nat) : Nat → Mod
  | 0 => m
  | n + 1 =>
    match (m.ring c r).cues with
    | [] => m
    | q :: _ =>
      match cueSelf q, m.takeCue c r with
      | some st, some (_, m') => (m'.finishCue c r st 0).advance c r n
      | _, _ => m

/-- What a ring does by itself: the overrun completion, and cues that complete by themselves. -/
def Mod.ringGo (m : Mod) (c r : Nat) : Mod := let m := m.overrunOut c r; m.advance c r (m.ring c r).cues.length

/-- The cue of an OP that a ring begins now, or that it has begun and that waits; whether it is new. -/
def Mod.cueOf (m : Mod) (c r op : Nat) : Option (Bool × Cue × Mod) :=
  match (m.ring c r).cur with
  | some q => if (q.bytes.map cueOp) = some op then some (false, q, m) else none
  | none =>
    match m.takeCue c r with
    | some (q, m') => if (q.bytes.map cueOp) = some op then some (true, q, m') else none
    | none => none

/-- A cue completed, and what the ring does next by itself. -/
def Mod.doneCue (m : Mod) (c r status : Nat) (info : Word) : Mod := (m.finishCue c r status info).ringGo c r

/-! Polls (R284, R286). -/

/-- A poll of the call board started: at most 4 are outstanding. -/
def Mod.poll (m : Mod) (c : Nat) : Mod :=
  let x := m.co c
  if m.isSet (cbEn c) && m.hostUp c && !m.ghost && decide (x.polls < 4) then
    let n := (m.get (cbSpan c) + 1) * 64
    let a := pageAddr (m.reg (cbAddr c))
    let m := m.hostRead c a (Nat.min n 512)
    let m := if 512 < n then m.hostRead c (a + 512) (n - 512) else m
    (m.countHost c 1 1).modCo c (fun x => { x with polls := x.polls + 1 })
  else m

/-- Polling turned off: outstanding polls set no value (R284). -/
def Mod.pollOff (m : Mod) (c : Nat) : Mod := (m.put (cbEn c) 0).modCo c (fun x => { x with stale := x.polls, pollFails := 0 })

/-- A ring stopped on overrun (R286). -/
def Mod.overrunStop (m : Mod) (c r : Nat) : Mod :=
  let x := m.ring c r
  let m := ((m.put (cmdEn c r) 0).put (cmdErr c r) 1).event c evRingErr
  (m.setRing c r { x with overrun := some x.fetched, reads := [], cues := [] }).ringGo c r

/-- Runs of cues that do not wrap, from an index (R286): at most 8, so at most two. -/
def cueRuns (size i n : Nat) : List (Nat × Nat) :=
  let k := Nat.min n (size - i % size)
  if n = 0 then [] else if k = n then [(i, n)] else [(i, k), ((i + k) % 2 ^ 32, n - k)]

/-- A command ring's TAIL taken (R286): overrun, or the cues not yet fetched read, at most 8 ahead of HEAD. -/
def Mod.takeTail (m : Mod) (c r tail : Nat) : Mod :=
  if !m.isSet (cmdEn c r) then m
  else
    let head := m.get (cmdHead c r)
    let ahead := (tail + 2 ^ 32 - head) % 2 ^ 32
    if m.cmdLen c r < ahead then m.overrunStop c r
    else
      let x := m.ring c r
      let got := (x.fetched + 2 ^ 32 - head) % 2 ^ 32
      let n := Nat.min ahead 8 - got
      let runs := cueRuns (m.cmdLen c r) x.fetched n
      let base := pageAddr (m.reg (cmdOff c r))
      let m := m.each runs (fun m k => m.hostRead c (base + BitVec.ofNat 64 (k.1 % m.cmdLen c r * 64)) (k.2 * 64))
      m.setRing c r { x with fetched := (x.fetched + n) % 2 ^ 32, reads := x.reads ++ runs }

/-- The words of poll data applied: HEADs of completion rings, then TAILs of command rings (R283). -/
def Mod.applyPoll (m : Mod) (c : Nat) (ws : List Word) : Mod :=
  let rs := allRings.filter (fun r => decide (2 * r + 1 < ws.length))
  let m := m.each rs (fun m r =>
    if m.isSet (cplEn c r) then m.setCpl c r { m.cpl c r with head := bits ((ws[2 * r + 1]?).getD 0) 31 0 } else m)
  let m := m.each rs (fun m r => m.takeTail c r (bits ((ws[2 * r]?).getD 0) 31 0))
  m.each allRings (fun m r => m.ringGo c r)

/-- The data of the oldest poll (R284). -/
def Mod.pollData (m : Mod) (c : Nat) (ok : Bool) (ws : List Word) : Mod :=
  let x := m.co c
  if x.polls = 0 then m
  else
    let m := m.setCo c { x with polls := x.polls - 1, stale := x.stale - 1 }
    if 0 < x.stale then m
    else if ok then (m.modCo c (fun x => { x with pollFails := 0 })).applyPoll c ws
    else if x.pollFails + 1 < 16 then (m.countHost c 2 1).modCo c (fun x => { x with pollFails := x.pollFails + 1 })
    else ((m.countHost c 2 1).pollOff c).event c evCbFault

/-- A cue read's return (R286, R292). -/
def Mod.cueReturn (m : Mod) (c r : Nat) (ok : Bool) (ws : List Word) : Mod :=
  let x := m.ring c r
  match x.reads with
  | [] => m
  | (i, n) :: rs =>
    let bs := wordBytes ws
    let qs := (List.range n).map (fun k => Cue.mk ((i + k) % 2 ^ 32) (if ok then some (slice bs (64 * k) 64) else none))
    ((m.countHost c 3 n).setRing c r { x with reads := rs, cues := x.cues ++ qs }).ringGo c r

/-! Messages (R288). -/

/-- A message of a vector of a company's function, or, masked, its pending bit. -/
def Mod.message (m : Mod) (c v : Nat) : Mod :=
  let k := msixKey (m.port c) (m.func c) v
  if m.vectorMasked k then { m with msixPend := sadd m.msixPend k } else m.sendVector (m.port c) (m.func c) v

/-- The message of the function's events, when one is due. -/
def Mod.eventMessage (m : Mod) (c : Nat) : Mod :=
  if (m.co c).evMsg && m.hostUp c then (m.message c 0).modCo c (fun x => { x with evMsg := false }) else m

/-- The entries that a ring's message answers for (R288): with IMOD_US = 0 every entry has its own, else IMOD_COUNT of them, or all
there are when the time is up. -/
def Mod.messageTakes (m : Mod) (c k : Nat) (timeUp : Bool) : Nat :=
  if m.get (cplImodUs c k) = 0 then 1 else if timeUp then (m.cpl c k).unsignalled else Nat.max 1 (m.get (cplImodCount c k))

/-- The message of a completion ring, when its count or its time is reached. -/
def Mod.ringMessage (m : Mod) (c k : Nat) (timeUp : Bool) : Mod :=
  let q := m.cpl c k
  let v := m.get (cplVector c k)
  let due := decide (0 < q.unsignalled) &&
    (timeUp || decide (m.get (cplImodUs c k) = 0 ∨ m.get (cplImodCount c k) ≤ q.unsignalled))
  if due && decide (v ≠ 0x7F) && m.hostUp c then (m.message c v).setCpl c k { q with unsignalled := q.unsignalled - m.messageTakes c k timeUp } else m

/-! Enabling and disabling (R285, R286, Table 12-15). -/

/-- A command ring disabled: fetching stops, cues read and not begun are dropped. -/
def Mod.ringOff (m : Mod) (c r : Nat) : Mod :=
  (m.put (cmdEn c r) 0).setRing c r { m.ring c r with reads := [], cues := [] }

/-- Whether a cue that will write into a completion ring is outstanding (R285). -/
def Mod.cplBusy (m : Mod) (c k : Nat) : Bool :=
  allRings.any (fun r =>
    let x := m.ring c r
    (x.cur.isSome && decide (x.dest = k)) || (x.overrun.isSome && decide (m.get (cmdCpl c r) = k)))

end Sys2Proof.Machine
end

