-- ==== Sys2Proof/Machine/Jobs.lean ====
section
/-! DEFINITION. Productions and jobs: the cells of a job, how a job is stopped and its run completed (R300 to R302,
R391 to R393), company generations (R399, R400). -/

namespace Sys2Proof.Machine

/-! Engines at a reset (R86, R127, R139, R204). -/
def Scalar.reset (s : Scalar) : Scalar := { Scalar.zero with scene := s.scene, nextId := s.nextId, egen := s.egen }
def Matrix.reset (x : Matrix) : Matrix := { Matrix.zero with sr := x.srInit, srInit := x.srInit, egen := x.egen }
def Vec.reset (v : Vec) : Vec := { Vec.zero with sr := v.srInit, srInit := v.srInit, egen := v.egen }
def Fly.reset (f : Fly) : Fly := { f with transfers := [], reqs := [] }

def Cell.eachMat (c : Cell) (f : Matrix → Matrix) : Cell := (List.range 6).foldl (fun c u => c.setMat u (f (c.mat u))) c

/-- An aside or a refusal in flight across a load or a reset (R224): no generation is its own, so that it is dropped where it is delivered,
and counted (R401). -/
def staleBody (b : Body) : Body :=
  match b with
  | .aside ch ws bad sf sl sc co _ => .aside ch ws bad sf sl sc co 256
  | .refusal ch _ => .refusal ch 256
  | b => b

/-- A cell of a job that a context reset stops (R392): its engines reset, its rigging and aside queues emptied. -/
def Cell.contextReset (c : Cell) : Cell :=
  let c := c.eachMat Matrix.reset
  { c with
    sc := c.sc.reset, vec := c.vec.reset, fly := c.fly.reset, rig := c.rig.empty, asideQ := []
    asides := c.asides.map staleBody, refusals := c.refusals.map staleBody }

/-- The stochastic-rounding states back at 1 (R75). -/
def Cell.srOne (c : Cell) : Cell :=
  let c := c.eachMat (fun x => { x with sr := 1, srInit := 1 })
  { c with vec := { c.vec with sr := 1, srInit := 1 } }

/-- With the seeds of another cell (R75). -/
def Cell.withSeeds (c d : Cell) : Cell :=
  let c := (List.range 6).foldl (fun c u => c.setMat u { c.mat u with srInit := (d.mat u).srInit }) c
  { c with vec := { c.vec with srInit := d.vec.srInit } }

/-! A company's production and job. -/

/-- The job cells of the loaded production, in production order (R296). -/
def Mod.prodCells (m : Mod) (c : Nat) : List (Nat × Nat) :=
  match (m.co c).prod with
  | some p => p.cells
  | none => []

/-- Whether a cell is a job cell of its company's running job. -/
def Mod.isJobCell (m : Mod) (c f l : Nat) : Bool := m.hasJob c && (m.prodCells c).any (fun p => decide (p = (f, l)))

def Mod.eachCell (m : Mod) (l : List (Nat × Nat)) (g : Cell → Cell) : Mod := m.each l (fun m p => m.modCell p.1 p.2 g)

/-- Every logical cell of a company's fields. -/
def Mod.coCells (m : Mod) (c : Nat) : List (Nat × Nat) :=
  (m.coFields c).flatMap (fun f => ((List.range 384).filter (m.cellOk f)).map (fun l => (f, l)))

/-- INFO that names a cell (Table 12-7). -/
def infoCell (f l : Nat) : Nat := f * 2 ^ 16 + l * 2 ^ 32

/-- INFO of a fault (Table 12-7). -/
def infoFault (code f l pc : Nat) : Word := BitVec.ofNat 64 (code % 256 + infoCell f l + pc % 2 ^ 18 * 2 ^ 42)

/-- PC all ones (Table 12-7). -/
def pcOnes : Nat := 0x3FFFF

/-- INFO of a SCENE cue (Table 12-7). -/
def Mod.infoScene (m : Mod) (c : Nat) : Word := BitVec.ofNat 64 (m.get (scDiscarded c) + m.get (scCurrent c) * 2 ^ 32)

/-! Generations (R399, R400). -/

/-- CGEN changed by 1; where the new value was held within 34 ms, the reset waits for it to age. -/
def Mod.bumpCgen (m : Mod) (c : Nat) : Mod :=
  let g := m.get (gsCgen c)
  let n := (g + 1) % 256
  if shas (m.co c).gens n then
    m.modCo c (fun x => { x with reset := x.reset.map (fun r => { r with waitGen := true, aged := if r.waitGen then r.aged else m.now }) })
  else
    (m.put (gsCgen c) n).modCo c (fun x => { x with
      gens := sadd x.gens g
      reset := x.reset.map (fun r => { r with waitGen := false, aged := if r.waitGen then m.now - r.aged else r.aged }) })

/-- Tags of requests of a company that a reset abandons (R402). -/
def tagOf (c : Nat) (t : Option TagUse) : Option TagUse :=
  t.map (fun u => if u.req.co = c then { u with dead := true } else u)

def Mod.deadTags (m : Mod) (c : Nat) : Mod := { m with tags := m.tags.map (fun e => (e.1, tagOf c e.2)) }

/-! The current step (R372). -/

/-- The first reason of R372, 1 to 5, that the current step cannot be replayed; 0 for none. -/
def Mod.stepWhy (m : Mod) (c : Nat) : Nat :=
  if m.get (encMode c) ≠ 1 ∧ m.get (encMode c) ≠ 2 then 1
  else
    match (m.co c).job with
    | none => 0
    | some j => if j.range.isNone then 2 else ((j.why.head?).getD 0)

/-- A reason noted for the current step, and ENC_STAT.WHY; a step in staging has ended (R370). -/
def Mod.addWhy (m : Mod) (c k : Nat) : Mod :=
  if m.isSet (esStaging c) then m else
  let m := m.modCo c (fun x => { x with job := x.job.map (fun j => { j with why := sadd j.why k }) })
  if (m.co c).job.isSome then m.put (esWhy c) (m.stepWhy c) else m

/-- Whether Prompter holds a request for the company's cells: a job cell is marked for rehearsal (R380). -/
def Mod.wanted (m : Mod) (c : Nat) : Bool :=
  (List.range 256).any (fun i =>
    let w := m.reg (rhOff i)
    bit w 63 && (m.prodCells c).any (fun p => decide (p = (bits w 56 50, bits w 49 41))))

/-! Stopping a job. -/

/-- A scene change abandoned (R174); the SCENE cue that began it completes with 0x0508. A staging goes on. -/
def Mod.dropChange (m : Mod) (c : Nat) : Mod :=
  match (m.co c).change with
  | none => m
  | some g =>
    if g.phase = 0 then m else
    let m := (m.put (scBusy c) 0).modCo c (fun x => { x with change := none })
    match g.cue with
    | some r => m.doneCue c r 0x508 (m.infoScene c)
    | none => m

/-- The production cells of FE that stand for the job cells of its field (R374). -/
def Mod.feCells (m : Mod) (c : Nat) : List (Nat × Nat) := (m.prodCells c).map (fun p => (m.get (encField c), p.2))

/-- A replay on FE stopped (R374). -/
def Mod.fieldStop (m : Mod) (c : Nat) : Mod :=
  if m.isSet (esReplaying c) && decide (m.get (encMode c) = 1) then m.eachCell (m.feCells c) Cell.contextReset else m

/-- Staging and an encore ended without a commit (R378). -/
def Mod.dropEncore (m : Mod) (c : Nat) : Mod :=
  let m := m.fieldStop c
  ((((m.put (esSuspect c) 0).put (esStaging c) 0).put (esReplaying c) 0).modCo c (fun x => { x with enc := .zero, heldAt := false }))

/-- LAST_INTERVAL set back to the scene S0 of the step, where it waits in staging (Table 17-4). -/
def Mod.backToS0 (m : Mod) (c : Nat) : Mod :=
  match (m.co c).job with
  | some j => if m.isSet (esStaging c) then (m.put (lastInterval c) j.s0).put (intervalValid c) 1 else m
  | none => m

/-- A context reset of the job begun (R392, steps 1 to 4), for a cause that gives the run completion `status` and
`info`; a held job's is 0x0307 but for STOP MODE 1 and ABANDON (Table 18-6). A reset in progress absorbs it. -/
def Mod.stopJob (m : Mod) (c status : Nat) (info : Word) (silent : Bool) : Mod :=
  if !m.hasJob c || (m.co c).reset.isSome then m
  else
    let held := decide (m.coState c = stHeld ∧ status ≠ 0x305 ∧ status ≠ 0x402)
    let m := (m.dropChange c).eachCell (m.prodCells c) Cell.contextReset
    let m := (m.dropEncore c).deadTags c
    let r : CoReset := ⟨1, if held then 0x307 else status, if held then 0 else info, true, false, silent, 0⟩
    let m := ((m.modCo c (fun x => { x with reset := some r })).put (gsBusy c) 1).addWrap (gsResets c) 1
    m.bumpCgen c

/-- A run's end: the state LOADED, the run's cue completed with a status unless nothing may be written. -/
def Mod.endRun (m : Mod) (c status : Nat) (info : Word) (silent : Bool) : Mod :=
  match (m.co c).job with
  | none => m
  | some j =>
    let m := ((m.setCoState c stLoaded).put (stopPending c) 0).put (holdHeld c) 0
    let m := m.modCo c (fun x => { x with job := none, heldAt := false })
    if silent || !m.hostUp c then m.dropCue c j.ring else m.doneCue c j.ring status info

/-- A context reset's end (R392, step 5; R409). -/
def Mod.contextDone (m : Mod) (c : Nat) : Mod :=
  match (m.co c).reset with
  | some r =>
    if r.level = 1 ∧ r.waitGen = false then
      let m := ((m.dropChange c).modCo c (fun x => { x with reset := none })).put (gsBusy c) 0
      let g := m.get (gsCgen c)
      let m := m.resetRecord 1 0 ((g + 255) % 256) g (some c) (m.prodCells c).length r.aged
      m.endRun c r.status r.info r.silent
    else m
  | none => m

/-- A job fault of a cell (R151, R164): the job is stopped with 0x0302. -/
def Mod.jobFault (m : Mod) (f l code pc : Nat) : Mod :=
  match m.coOf f with
  | some c => if m.isJobCell c f l then m.stopJob c 0x302 (infoFault code f l pc) false else m
  | none => m

/-- A JEND status of a job cell that reached the ring unit (R150): the first that is not zero is kept. -/
def Mod.jendStatus (m : Mod) (f l status : Nat) : Mod :=
  match m.coOf f with
  | some c =>
    if m.isJobCell c f l then
      m.modCo c (fun x => { x with job := x.job.map (fun j =>
        if status = 0 ∨ j.first.isSome = true then j else { j with first := some (status, f, l) }) })
    else m
  | none => m

/-- The status and INFO of a run that ends by itself (R150, R292). -/
def runStatus (j : Job) : Nat × Word :=
  match j.first with
  | some (s, f, l) => (0x301, BitVec.ofNat 64 (s % 65536 + infoCell f l))
  | none => (0, 0)

/-- Whether every job cell has ended its part (R150). -/
def Mod.allEnded (m : Mod) (c : Nat) : Bool := (m.prodCells c).all (fun p => (m.cell p.1 p.2).sc.ended)

/-- The company's rigging emptied, and the tokens that were in it (R171, R174). -/
def Mod.rigTokens (m : Mod) (c : Nat) : Nat := ((m.coCells c).map (fun p => (m.cell p.1 p.2).rig.tokens)).foldl (· + ·) 0

def Mod.emptyRig (m : Mod) (c : Nat) : Mod := m.eachCell (m.coCells c) (fun x => { x with rig := x.rig.empty })

/-- A job's own end (R174, R300): tokens left are discarded and counted, a scene change goes no further. -/
def Mod.jobEnds (m : Mod) (c : Nat) : Mod :=
  match (m.co c).job with
  | none => m
  | some j =>
    let n := m.rigTokens c
    let m := ((m.emptyRig c).put (scDiscarded c) (Nat.min n 0xFFFFFFFF)).put (scResult c) 7
    let m := m.dropChange c
    let s := runStatus j
    m.endRun c s.1 s.2 false

end Sys2Proof.Machine
end

