-- ==== Sys2Proof/Machine/Paths.lean ====
section
/-! DEFINITION. How register writes reach the module: through BAR0 of the physical function, a virtual function's
window, or space 0x2 (R9, R18, R308 to R310, R398, R405, R459, R462). -/

namespace Sys2Proof.Machine

/-- Whether writes through the physical function reach the blocks that ghost light takes out of service: rings, Shedin, field blocks
(R18, R405). -/
def Mod.pfAll (m : Mod) : Bool := m.prompterUp && !m.ghost

/-- Whether the virtual function a company is bound to reaches its window (R308, R309, R405, R437, R463). -/
def Mod.vfOpen (m : Mod) (c : Nat) : Bool :=
  m.isSet (cdEn c) && decide (m.func c ≠ 0) && m.vfOn (m.port c) (m.func c) && m.portLink (m.port c) && !m.ghost

/-- Whether a virtual function exists on PCIe, so that an access reaches its window (R405, R437, R463). -/
def Mod.vfUp (m : Mod) (hp fn : Nat) : Bool := decide (fn ≠ 0) && m.vfOn hp fn && m.portLink hp && !m.ghost

/-- The enabled company that names a virtual function, none where none does (R308). -/
def Mod.vfCo (m : Mod) (hp fn : Nat) : Option Nat := allCos.find? (fun c => m.isSet (cdEn c) && decide (m.port c = hp ∧ m.func c = fn))

/-- Whether an access reaches BAR2 of a function: in ghost light port 0's physical function alone (R280, R405, R437). -/
def Mod.bar2Up (m : Mod) (hp fn : Nat) : Bool := m.vfOn hp fn && m.portLink hp && (!m.ghost || decide (hp = 0 ∧ fn = 0))

/-- Whether a writer reaches a company's block. -/
def Mod.coOpen (m : Mod) (c : Nat) (src : WSrc) : Bool :=
  m.prompterUp &&
    match src with
    | .pf => true
    | .vf => m.vfOpen c
    | .engine => m.isSet (cdEn c) && !m.ghost

/-- Whether a writer reaches a company's ring block. -/
def Mod.ringOpen (m : Mod) (c : Nat) (src : WSrc) : Bool := m.coOpen c src && !m.ghost

/-- A write of a register with no behaviour of its own: its fields one by one (R6, R9). -/
def Mod.plainWrite (m : Mod) (o : Nat) (v : Word) : Mod :=
  match regAt o with
  | some d => m.setReg o (applyWrite d (m.reg o) v)
  | none => m

/-- A write to a field block in ghost light: its domain is off, and it takes effect at the exit (R405). -/
def Mod.writeLater (m : Mod) (o : Nat) (v : Word) : Mod := { m with late := m.late ++ [(o, v)] }

/-- A write to a register of a field that has a command of its own. -/
def Mod.fieldCtrl (m : Mod) (o : Nat) (v : Word) (g : Mod) : Mod :=
  if !m.prompterUp then m else if m.ghost then m.writeLater o v else g

/-- A command of the physical function on a block that ghost light takes out of service. -/
def onPf (s : State) (g : Mod → Mod) : Host.Outcome State Fault Refusal := onMod s (fun m => if m.pfAll then g m else m)

/-- A command of the physical function on a block that stays in service in ghost light. -/
def onDev (s : State) (g : Mod → Mod) : Host.Outcome State Fault Refusal := onMod s (fun m => if m.prompterUp then g m else m)

/-- A write into a company's block. -/
def onCo (s : State) (c : Nat) (src : WSrc) (g : Mod → Mod) : Host.Outcome State Fault Refusal :=
  onMod s (fun m => if m.coOpen c src then g m else m)

/-- A write into a company's ring block. -/
def onRing (s : State) (c : Nat) (src : WSrc) (g : Mod → Mod) : Host.Outcome State Fault Refusal :=
  onMod s (fun m => if m.ringOpen c src then g m else m)

/-! The security configuration record (R413, Table 19-2). -/

/-- The record's bytes of company c. -/
def Mod.cfgCo (m : Mod) (c : Nat) : List Byte :=
  toLe (m.reg (coBase c + 0x800)).toNat 8 ++ toLe (m.get (sjJob c)) 2 ++
    toLe (m.get (sjRemoteCell c) + 2 * m.get (encMode c)) 1 ++ toLe 0 1

/-- The 256 bytes of the record. -/
def Mod.cfgRecord (m : Mod) : List Byte :=
  toLe (m.get ckMode + 2 * m.get ckDelay + 8 * m.get ckPort) 1 ++ toLe (if bits (m.reg 0x1300) 18 16 = 7 then 0 else 1) 1 ++
    toLe (0x60 + bits (m.reg 0x1300) 22 20) 1 ++ toLe 0 1 ++ toLe (m.get devNum) 2 ++ toLe (m.get injEn + 2 * m.get errEn) 1 ++
    toLe 0 1 ++ (List.range 4).flatMap (fun p => toLe (mget 0 m.numVfs p) 1) ++ toLe 0 4 ++ allCos.flatMap m.cfgCo ++
    allCos.flatMap (fun c => toLe (m.get (encPartner c)) 2) ++ toLe 0 16

/-- A write that changes a value of the record counts in CHANGES (R413). -/
def Mod.counted (m m' : Mod) : Mod := if m.cfgRecord = m'.cfgRecord then m' else m'.addWrap (miChanges 5) 1

end Sys2Proof.Machine
end

