-- ==== Sys2Proof/Machine/Mx.lean ====
section
/-! DEFINITION. MX blocks: their bytes (R67), conversion to and from them (R77 to R80) and the block accumulation
of the matrix cores (R81, R82). -/

namespace Sys2Proof.Machine

/-- The 32 element codes of a block payload (R67). -/
def unpackElems (w : Nat) (pay : Nat) : List Nat := (List.range 32).map (fun i => pay / 2 ^ (i * w) % 2 ^ w)

/-- The payload of element codes, as one little-endian integer (R67). -/
def packElems (w : Nat) : List Nat → Nat
  | [] => 0
  | x :: xs => x % 2 ^ w + 2 ^ w * packElems w xs

/-- Bytes of a block's payload (R67). -/
def payBytes (code : Nat) : Nat := 4 * elemBits code

/-- The 32 values of a block without its scale; a NaN block reads as NaN (R80). -/
def blockVals (code : Nat) (pay : Nat) (scl : Nat) : List Val :=
  (unpackElems (elemBits code) pay).map (fun x => if scl = 255 then .nan else elemVal code x)

/-- The code of one element rounded to an element format, or none where it overflows to a NaN block (R73, R79). -/
def elemCode (code mode draw : Nat) (v : Val) : Option Nat :=
  match v with
  | .nan => if code = 2 ∨ code = 3 then some 0x7F else none
  | .inf n => if code = 2 then some 0x7F else if code = 3 then some (if n then 0xFC else 0x7C) else none
  | .fin n m e =>
    match roundFin (fmtOf code) mode draw n m e false with
    | .big n => if code = 2 then some 0x7F else if code = 3 then some (if n then 0xFC else 0x7C) else none
    | .fin n m q => some (codeFin (fmtOf code) n m q)

/-- The 32 draws of a block conversion under SR, and the generator after them (R75). -/
def blockDraws (mode : Nat) : Nat → Word32 → List Nat × Word32
  | 0, x => ([], x)
  | n + 1, x =>
    let d := srDraw mode x
    let r := blockDraws mode n d.2
    (d.1 :: r.1, r.2)

/-- The largest finite magnitude, as (m, e); (0, 0) when there is none (R78 step 2). -/
def amaxOf : List Val → Nat × Int
  | [] => (0, 0)
  | .fin _ m e :: vs =>
    let r := amaxOf vs
    if m = 0 then r else if r.1 = 0 then (m, e) else if magLt r.1 r.2 m e then (m, e) else r
  | _ :: vs => amaxOf vs

/-- The computed scale code of R78, steps 2 to 4. -/
def mxScale (code : Nat) (vs : List Val) : Nat :=
  let a := amaxOf vs
  if a.1 = 0 then 0
  else
    let s := flog2 a.1 a.2 - emaxElem code + 127
    let s := if s < 0 then 0 else if 254 < s then 254 else s
    let f := fmtOf code
    let s := if magLt f.maxM f.maxE a.1 (a.2 - (s - 127)) then s + 1 else s
    s.toNat

/-- All element codes, or none when one of them makes the block a NaN block. -/
def elemCodes (code mode : Nat) (s : Nat) : List Val → List Nat → Option (List Nat)
  | [], _ => some []
  | v :: vs, ds =>
    match elemCode code mode (ds.headD 0) (v.scale (127 - (s : Int))), elemCodes code mode s vs ds.tail with
    | some x, some xs => some (x :: xs)
    | _, _ => none

def isSpecialVal : Val → Bool
  | .fin _ _ _ => false
  | _ => true

/-- A converted block: its scale code, its payload, and the generator after it. -/
structure MxBlock where
  scl : Nat
  pay : Nat
  sr : Word32
deriving DecidableEq, Repr

/-- Conversion of 32 values to an MX block with the draws given: its scale code and payload (R78, R79, R80). -/
def toMxDraws (code mode : Nat) (supplied : Option Nat) (vs : List Val) (ds : List Nat) : Nat × Nat :=
  let bad := decide (code ≠ 2 ∧ code ≠ 3) && vs.any isSpecialVal
  let s := supplied.getD (mxScale code vs)
  if bad || decide (s = 255) then (255, 0)
  else
    match elemCodes code mode s vs ds with
    | some xs => (s, packElems (elemBits code) xs)
    | none => (255, 0)

/-- Conversion of 32 values to an MX block, with a computed or a supplied scale (R78, R79, R80). -/
def toMx (code mode : Nat) (supplied : Option Nat) (vs : List Val) (sr : Word32) : MxBlock :=
  let d := blockDraws mode 32 sr
  let b := toMxDraws code mode supplied vs d.1
  ⟨b.1, b.2, d.2⟩

/-- Whether a converted block is a NaN block or holds a NaN code; counted as a NaN block (R84, Table 20-1). -/
def MxBlock.isNan (b : MxBlock) : Bool := decide (b.scl = 255)

/-- Widening of a block to FP32 codes (R77). -/
def mxToFp32 (code : Nat) (pay scl : Nat) : List Word32 :=
  (blockVals code pay scl).map (fun v => toFp32 0 0 (v.scale ((scl : Int) - 127)) false)

/-! Block accumulation (R81, R82). -/

/-- The exact products of a block's pairs. -/
def products : List Val → List Val → List Val
  | a :: as, b :: bs => a.mul b :: products as bs
  | _, _ => []

/-- The largest floor(log2 |p|) among the non-zero finite products (R81 step 2). -/
def emaxOf : List Val → Option Int
  | [] => none
  | .fin _ m e :: ps =>
    if m = 0 then emaxOf ps
    else
      match emaxOf ps with
      | none => some (flog2 m e)
      | some x => some (if x < flog2 m e then flog2 m e else x)
  | _ :: ps => emaxOf ps

/-- A magnitude truncated to a multiple of 2^q, in units of 2^q (R81 step 3). -/
def truncAt (m : Nat) (e q : Int) : Nat := if q ≤ e then m * 2 ^ (e - q).toNat else m >>> (q - e).toNat

/-- The sum of the truncated products (R81 step 4). -/
def truncSum (q : Int) : List Val → Int
  | [] => 0
  | .fin n m e :: ps => (if n then -((truncAt m e q : Nat) : Int) else ((truncAt m e q : Nat) : Int)) + truncSum q ps
  | _ :: ps => truncSum q ps

/-- The block partial sum without its scales, or none where every product is zero. -/
def blockPartial (fbits : Int) (ps : List Val) : Option (Int × Int) :=
  match emaxOf ps with
  | none => none
  | some em =>
    let q := em - fbits - 3
    some (truncSum q ps, q)

/-- A product in the table of R82: the element products that are infinite, by sign. -/
def anyInf (neg : Bool) (ps : List Val) : Bool := ps.any (fun p => decide (p = .inf neg))

/-- One K-block added into an FP32 accumulator (R81, R82). -/
def accumulateBlock (fbits : Int) (acc : Word32) (a b : List Val) (sa sb : Nat) : Word32 :=
  let av := ofFp32 acc
  if av.isNan || decide (sa = 255) || decide (sb = 255) || a.any Val.isNan || b.any Val.isNan then 0x7FC00000
  else
    let ps := products a b
    if ps.any Val.isNan then 0x7FC00000
    else if anyInf true ps && anyInf false ps then 0x7FC00000
    else if anyInf true ps then toFp32 0 0 (av.add (.inf true)) false
    else if anyInf false ps then toFp32 0 0 (av.add (.inf false)) false
    else
      match blockPartial fbits ps with
      | none => acc
      | some (x, q) =>
        if x = 0 then acc
        else
          toFp32 0 0 (av.add (.fin (decide (x < 0)) x.natAbs (q + (sa : Int) - 127 + (sb : Int) - 127))) false

end Sys2Proof.Machine
end

