-- ==== Sys2Proof/Machine/Flags.lean ====
section
/-! DEFINITION. Conditions and event bits. The machine has no arithmetic flags (R84): a branch compares two registers
(R141), a vector compare writes a mask (R131), and a unit tells the scalar core of what happened in EVENTS (R152). -/

namespace Sys2Proof.Machine

/-- The branch conditions of opcodes 0x28 to 0x2D (R141), by opcode minus 0x28. -/
def branchTaken (k : Nat) (a b : Word) : Bool :=
  match k with
  | 0 => decide (a = b)
  | 1 => decide (a ≠ b)
  | 2 => a.slt b
  | 3 => !a.slt b
  | 4 => a.ult b
  | _ => !a.ult b

/-- EVENTS bits of Table 06-10. -/
def setEvent (s : Scalar) (b : Nat) : Scalar := { s with events := s.events ||| (1#64 <<< b) }

/-- A word with bit `l` as a function says. -/
def bitsOf (f : Nat → Bool) : Word :=
  BitVec.ofNat 64 (((List.range 64).map (fun l => if f l then 2 ^ l else 0)).foldl (· + ·) 0)

/-- Equality of values, of zeros whatever their signs; not of NaN. -/
def Val.eqv (a b : Val) : Bool := !a.isNan && !b.isNan && !a.lt b && !b.lt a

/-- The VCMP predicates. -/
def fpPred (k : Nat) (a b : Val) : Bool :=
  let nan := a.isNan || b.isNan
  match k with
  | 0 => a.eqv b
  | 1 => !a.eqv b
  | 2 => !nan && a.lt b
  | 3 => !nan && !b.lt a
  | 4 => !nan && b.lt a
  | 5 => !nan && !a.lt b
  | 6 => a.isNan
  | _ => match a with
    | .inf _ => true
    | _ => false

/-- The signed predicates of VICMP. -/
def intPred (k : Nat) (a b : Word32) : Bool :=
  match k with
  | 0 => decide (a = b)
  | 1 => decide (a ≠ b)
  | 2 => a.slt b
  | 3 => !b.slt a
  | 4 => b.slt a
  | _ => !a.slt b

end Sys2Proof.Machine
end

