-- ==== Sys2Proof/Machine/CellMem.lean ====
section
/-! DEFINITION. Cell memory (R35 to R38, R55 to R60): rows, poison and correction marks, and the gather buffers
(R51 to R53). -/

namespace Sys2Proof.Machine

/-- Bytes of a unit's memory (Table 01-11). -/
def unitBytes (u : Nat) : Nat := if u = 8 then 0x40000 else if u < 8 then 0x30000 else 0

/-- Rows of a unit's memory. -/
def unitRows (u : Nat) : Nat := unitBytes u / 64

/-- The key of a byte of cell memory. -/
def memKey (u off : Nat) : Nat := u * 2 ^ 18 + off

def Cell.note (c : Cell) (n : Note) : Cell := { c with notes := c.notes ++ [n] }

/-- `n` bytes of a unit from an offset. -/
def Cell.bytes (c : Cell) (u off n : Nat) : List Byte := readBytes c.mem (memKey u off) n

/-- A row of a unit (R37). -/
def Cell.row (c : Cell) (u r : Nat) : List Byte := c.bytes u (r * 64) 64

/-- Whether any of `n` rows holds an uncorrectable word: a read of such a row returns it poisoned (R59). -/
def Cell.rowsBad (c : Cell) (u r n : Nat) : Bool :=
  c.poison.any (fun w => decide (memKey u (r * 64) ≤ w * 8 ∧ w * 8 < memKey u (r * 64) + n * 64))

/-- The poisoned words among `n` bytes from an offset that is a multiple of 8, counted from it. -/
def Cell.badWords (c : Cell) (u off n : Nat) : List Nat :=
  (List.range (n / 8)).filter (fun i => shas c.poison (memKey u off / 8 + i))

/-- What reading `n` rows does beside returning them: a word with a correctable error is counted and put down for
write-back (R58, R60), and an uncorrectable one is recorded (R59). -/
def Cell.touch (c : Cell) (u r n : Nat) : Cell :=
  let a := memKey u (r * 64) / 8
  let hit := fun w => decide (a ≤ w ∧ w < a + n * 8)
  let fixd := c.latent.filter hit
  { c with
    wbacks := fixd.foldl sadd c.wbacks
    notes := c.notes ++ fixd.map (fun w => .ecc w true) ++ (c.poison.filter hit).map (fun w => .ecc w false) }

/-- A crossbar transfer, which an access through the unit's own direct port is not: one whose parity fails is repeated
once (R59). Whether it got through. -/
def Cell.crossing (c : Cell) (direct : Bool) : Cell × Bool :=
  if direct || decide (c.xbarParity = 0) then (c, true)
  else if c.xbarParity = 1 then ({ c with xbarParity := 0, notes := c.notes ++ [.xbar true] }, true)
  else ({ c with xbarParity := c.xbarParity - 2, notes := c.notes ++ [.xbar false] }, false)

/-- `n` rows read by the engine whose direct port is unit `own`: what the read does, and whether it came back bad; a
transfer that fails twice is an uncorrectable read (R59). -/
def Cell.readRows (c : Cell) (own u r n : Nat) : Cell × Bool :=
  let p := (c.touch u r n).crossing (decide (u = own))
  (p.1, c.rowsBad u r n || !p.2)

/-- A write of whole bytes (R37): words wholly overwritten get fresh check bits, words partly overwritten keep their
poison (R59), and pending write-backs of the rows are cancelled (R60). -/
def Cell.write (c : Cell) (u off : Nat) (bs : List Byte) : Cell :=
  let k := memKey u off
  let w0 := ceilDiv k 8
  let w1 := (k + bs.length) / 8
  let r0 := k / 64 * 8
  let r1 := (k + bs.length + 63) / 64 * 8
  { c with
    mem := writeBytes c.mem k bs
    poison := sdelRange c.poison w0 (w1 - w0)
    latent := sdelRange c.latent (k / 8) (ceilDiv (k + bs.length) 8 - k / 8)
    wbacks := sdelRange c.wbacks r0 (r1 - r0) }

/-- Poison marks put on 8-byte words, counted from an offset (R59, R191). -/
def Cell.mark (c : Cell) (u off : Nat) (ws : List Nat) : Cell :=
  { c with poison := ws.foldl (fun p w => sadd p (memKey u off / 8 + w)) c.poison }

/-- Bytes written one by one where the mask has a 1. -/
def maskWrite (c : Cell) (u off : Nat) : List Byte → Nat → Cell
  | [], _ => c
  | b :: bs, m => maskWrite (if m % 2 = 1 then c.write u off [b] else c) u (off + 1) bs (m / 2)

/-- A masked write: each whole 8-byte word in one piece, any other by read-merge-write (R37). -/
def wordMaskWrite (c : Cell) (u off : Nat) (data : List Byte) (m : Nat) : Nat → Cell
  | 0 => c
  | n + 1 =>
    let c := if m % 256 = 255 then c.write u off (data.take 8) else maskWrite c u off (data.take 8) (m % 256)
    wordMaskWrite c u (off + 8) (data.drop 8) (m / 256) n

/-- The words of a row of which a mask has some bytes. -/
def maskWords (m : Nat) : List Nat := (List.range 8).filter (fun w => decide (m / 256 ^ w % 256 ≠ 0))

/-- Whether a mask has a part of some 8-byte word (R37). -/
def maskPartial (m : Nat) : Bool := (maskWords m).any (fun w => decide (m / 256 ^ w % 256 ≠ 255))

/-- A masked write of one row (R37): a read-merge-write reads the row first, whose errors are met as in any read (R58,
R59). -/
def Cell.maskRow (c : Cell) (u r : Nat) (data : List Byte) (m : Nat) : Cell :=
  wordMaskWrite (if maskPartial m then c.touch u r 1 else c) u (r * 64) data m 8

/-- What an entry's own words in error tell (Table 17-1). -/
def Cell.entryEcc (c : Cell) (e : GatherEntry) : Cell :=
  if e.ecc = 0 then c else c.note (.ecc (memKey e.unit (e.row * 64) / 8) (decide (e.ecc = 1)))

/-- A gather-buffer entry's flush (R52); `direct`: through the own scratchpad's port. Words that a crossbar transfer did
not bring through, or that the buffer lost, are uncorrectable (log entry 43). -/
def Cell.flushEntry (c : Cell) (direct : Bool) (e : GatherEntry) : Cell :=
  let p := (c.entryEcc e).crossing direct
  let d := p.1.maskRow e.unit e.row e.data e.valid
  if p.2 && decide (e.ecc ≤ 1) then d else d.mark e.unit (e.row * 64) (maskWords e.valid)

/-- An entry of the scalar core's buffer flushed. -/
def Cell.flushOwn (c : Cell) (e : GatherEntry) : Cell := c.flushEntry (decide (e.unit = 7)) e

/-- All entries of the scalar core's buffer flushed, in allocation order (R52). -/
def Cell.flushGather (c : Cell) : Cell :=
  let c' := c.sc.gather.foldl Cell.flushOwn c
  { c' with sc := { c'.sc with gather := [] } }

def entryIs (u r : Nat) (e : GatherEntry) : Bool := decide (e.unit = u ∧ e.row = r)

/-- The entry of a row flushed, if there is one: the owner's read waits for it (R53). -/
def Cell.flushRow (c : Cell) (u r : Nat) : Cell :=
  let es := c.sc.gather.filter (entryIs u r)
  let c' := es.foldl Cell.flushOwn c
  { c' with sc := { c'.sc with gather := c'.sc.gather.filter (fun e => !entryIs u r e) } }

/-- The bytes of a row with some replaced from an offset in the row. -/
def patch (row : List Byte) (o : Nat) (bs : List Byte) : List Byte :=
  row.take o ++ bs ++ row.drop (o + bs.length)

/-- A narrow store into the gather buffer (R51): it merges, or takes a free entry after the oldest is flushed, and a
full entry is flushed (R52). -/
def Cell.gatherStore (c : Cell) (u off : Nat) (bs : List Byte) : Cell :=
  let r := off / 64
  let o := off % 64
  let mask := (2 ^ bs.length - 1) * 2 ^ o
  let c :=
    if c.sc.gather.any (entryIs u r) then
      { c with sc := { c.sc with gather := c.sc.gather.map (fun e =>
          if entryIs u r e then { e with data := patch e.data o bs, valid := e.valid ||| mask } else e) } }
    else
      let c :=
        if 4 ≤ c.sc.gather.length then
          match c.sc.gather with
          | e :: es => let c' := c.flushOwn e; { c' with sc := { c'.sc with gather := es } }
          | [] => c
        else c
      { c with sc := { c.sc with gather := c.sc.gather ++ [⟨u, r, patch (List.replicate 64 0) o bs, mask, 0⟩] } }
  if c.sc.gather.any (fun e => entryIs u r e && decide (e.valid = 2 ^ 64 - 1)) then c.flushRow u r else c

/-- The delivery port's buffer flushed (R52, R54). -/
def Cell.flushAside (c : Cell) : Cell :=
  let c' := c.asideGather.foldl (fun c e => c.flushEntry false e) c
  { c' with asideGather := [] }

/-- Zero-fill of a cell's memories (R56): zeros with clean ECC, both gather buffers cleared. -/
def Cell.zeroFill (c : Cell) : Cell :=
  { c with
    mem := [], poison := [], latent := [], wbacks := [], asideGather := []
    sc := { c.sc with gather := [] } }

/-- A local address of R143: the unit and byte offset, or none where it is a bad address for an access of `n`
bytes (R55). -/
def localAddr (a : Word) (n : Nat) : Option (Nat × Nat) :=
  let u := bits a 21 18
  let o := bits a 17 0
  if a.toNat < 2 ^ 22 ∧ u ≤ 8 ∧ o + n ≤ unitBytes u ∧ o % n = 0 then some (u, o) else none

end Sys2Proof.Machine
end

