-- ==== Sys2Proof/Machine/Operands.lean ====
section
/-! DEFINITION. The scalar core's operands and operations: registers (R139), the ALU functions (R142), the
control and status registers (R152). -/

namespace Sys2Proof.Machine

/-- A scalar register; x0 reads as zero (R139). -/
def xget (s : Scalar) (n : Nat) : Word := if n = 0 then 0 else mget 0 s.x n

/-- A scalar register written; a write to x0 is discarded (R139). -/
def xset (s : Scalar) (n : Nat) (v : Word) : Scalar := if n = 0 then s else { s with x := mset 0 s.x n v }

/-- Several registers from `n` up. -/
def xsetList (s : Scalar) (n : Nat) : List Word → Scalar
  | [] => s
  | v :: vs => xsetList (xset s n v) (n + 1) vs

/-- The arithmetic right shift of a word. -/
def sra (a : Word) (n : Nat) : Word := a.sshiftRight n

/-- The high 64 bits of an exact product. -/
def mulHigh (a b : Int) : Word := BitVec.ofInt 64 (a * b / 2 ^ 64)

/-- ALU functions with a reserved FN, or a reserved RB (R142). -/
def aluBad (fn rb : Nat) : Bool := decide (0x14 < fn ∨ ((fn = 0x11 ∨ fn = 0x12) ∧ rb ≠ 0))

/-- Signed division (R142): by zero all ones, and -2^63 by -1 gives -2^63. -/
def sdivW (a b : Word) : Word := if b = 0 then -1 else BitVec.ofInt 64 (Int.tdiv a.toInt b.toInt)

/-- Signed remainder (R142): by zero the dividend. -/
def sremW (a b : Word) : Word := if b = 0 then a else BitVec.ofInt 64 (Int.tmod a.toInt b.toInt)

/-- The ALU functions of R142. -/
def aluFn (fn : Nat) (a b : Word) : Word :=
  match fn with
  | 0x00 => a + b
  | 0x01 => a - b
  | 0x02 => a &&& b
  | 0x03 => a ||| b
  | 0x04 => a ^^^ b
  | 0x05 => a <<< (b.toNat % 64)
  | 0x06 => a >>> (b.toNat % 64)
  | 0x07 => sra a (b.toNat % 64)
  | 0x08 => if a.slt b then 1 else 0
  | 0x09 => if a.ult b then 1 else 0
  | 0x0A => a * b
  | 0x0B => mulHigh a.toInt b.toInt
  | 0x0C => mulHigh a.toNat b.toNat
  | 0x0D => sdivW a b
  | 0x0E => if b = 0 then -1 else a / b
  | 0x0F => sremW a b
  | 0x10 => if b = 0 then a else a % b
  | 0x11 => BitVec.ofNat 64 (leadingZeros 64 a.toNat)
  | 0x12 => BitVec.ofNat 64 (popcount 64 a.toNat)
  | 0x13 => if b.slt a then b else a
  | _ => if a.slt b then b else a

/-- SHI's shift (Table 06-9). -/
def shiFn (imm : Half) (a : Word) : Word :=
  let n := bits imm 5 0
  match bits imm 7 6 with
  | 0 => a <<< n
  | 1 => a >>> n
  | _ => sra a n

/-- SHI's reserved encodings (Table 06-9). -/
def shiBad (imm : Half) : Bool := decide (bits imm 15 8 ≠ 0 ∨ bits imm 7 6 = 3)

/-- A loaded value of `n` bytes, sign- or zero-extended (R143). -/
def loadExt (n : Nat) (signed : Bool) (v : Nat) : Word :=
  if signed then sext (8 * n) v else BitVec.ofNat 64 v

/-- The effective local address ra + IMM16, the immediate sign-extended (R143; log entry 7). -/
def effAddr (s : Scalar) (ra : BitVec 5) (imm : Half) : Word := xget s ra.toNat + imm.signExtend 64

/-- A CSR's value (Table 06-10). -/
def csrGet (e : Env) (s : Scalar) (n : Nat) : Word :=
  match n with
  | 0 => s.events
  | 1 => BitVec.ofNat 64 (s.fstat % 256)
  | 2 => BitVec.ofNat 64 (s.astat % 256)
  | 3 => BitVec.ofNat 64 (s.alen % 8)
  | 4 => BitVec.ofNat 64 e.cycle
  | 5 => BitVec.ofNat 64 (e.field % 128 * 2 ^ 16 + e.lcell % 512)
  | 6 => BitVec.ofNat 64 (s.scene % 256)
  | _ => BitVec.ofNat 64 (e.device % 4096)

/-- A CSR write (R152): EVENTS and ASTAT are cleared by ones, FSTAT is written, the rest ignore it. -/
def csrPut (s : Scalar) (n : Nat) (v : Word) : Scalar :=
  match n with
  | 0 => { s with events := s.events &&& ~~~ v }
  | 1 => { s with fstat := bits v 7 0 }
  | 2 => { s with astat := s.astat &&& (255 - bits v 7 0) }
  | _ => s

end Sys2Proof.Machine
end

