-- ==== Sys2Proof/Machine/Scalar.lean ====
section
/-! DEFINITION. The scalar core's issue of one instruction (R139, R140, R151, R229 to R231) and the instructions
that stay inside it: ALU, immediates, branches, local loads and stores, fences, CSRs, WAITEV. -/

namespace Sys2Proof.Machine

/-- How an instruction leaves the core: complete, complete and the core stopped, complete with a new PC, waiting, or
faulted with a code. -/
inductive SRes where
  | done (c : Cell)
  | halt (c : Cell)
  | jump (c : Cell) (pc : Nat)
  | wait (c : Cell)
  | fault (c : Cell) (code : Nat)
deriving DecidableEq, Repr

/-- Whom later instructions wait for (Table 10-2): 0 none of these, 1 load, 2 store, 3 FLD, 4 FST or FATOM, 5 a
publishing instruction. -/
abbrev SClass := Nat

/-- Whether a barrier of a kind holds an instruction of a class (Table 10-2). -/
def barrierHolds (kind : Nat) (cls : SClass) : Bool :=
  match kind with
  | 0 => decide (cls = 2 ∨ cls = 4 ∨ cls = 5)
  | 1 => decide (1 ≤ cls)
  | _ => true

/-- A barrier whose awaited accesses have not all been answered. -/
def barrierLive (s : Scalar) (b : Barrier) : Bool := b.ids.any (fun i => s.outst.any (fun a => decide (a.id = i)))

/-- Whether a register is the destination of an outstanding FLD or FATOM (R229). -/
def regAwaited (s : Scalar) (r : Nat) : Bool :=
  decide (r ≠ 0) && s.outst.any (fun a => decide (a.kind ≠ 1 ∧ a.rd = r))

/-- Whether an instruction must wait before it issues: for a barrier (R230, R231) or a register (R229). -/
def scalarHeld (s : Scalar) (cls : SClass) (regs : List Nat) : Bool :=
  s.barriers.any (fun b => barrierLive s b && barrierHolds b.kind cls) || regs.any (regAwaited s)

/-- Whether a full fence holds every instruction (Table 10-2). -/
def fullHeld (s : Scalar) : Bool := s.barriers.any (fun b => barrierLive s b && decide (2 ≤ b.kind))

/-- The scalar core stops and signals a job fault with a code and the PC (R151). -/
def scalarFault (c : Cell) (code pc : Nat) : Cell :=
  { c with sc := { c.sc with run := .stopped, asleep := 0 }, notes := c.notes ++ [.fault code pc] }

def scalarWait (c : Cell) (op : Nat) : Cell := { c with sc := { c.sc with run := .waiting, asleep := op } }

/-- An issued instruction's end: the next PC and the instruction counted. -/
def scalarRetire (c : Cell) (pc : Nat) : Cell :=
  { c with sc := { c.sc with run := .running, asleep := 0, pc := pc }, notes := c.notes ++ [.count 3 1 0 1] }

def scalarEnd (op pc : Nat) : SRes → Cell
  | .done c => scalarRetire c (pc + 4)
  | .halt c => let c' := scalarRetire c (pc + 4); { c' with sc := { c'.sc with run := .stopped } }
  | .jump c pc' => scalarRetire c pc'
  | .wait c => scalarWait c op
  | .fault c code => scalarFault c code pc

/-- Whether the core may issue an instruction of an opcode now: it runs, or it waits in that one. -/
def scalarReady (s : Scalar) (op : Nat) : Bool :=
  match s.run with
  | .running => true
  | .waiting => decide (s.asleep = op)
  | .stopped => false

/-- One instruction of the scalar core: nothing while it is stopped or waits in another one; a wait for a barrier or a
register (R229 to R231), for a full fence alone where the PC is beyond the scratchpad and there is no instruction; a fault
at such a PC (R139) or of a bad encoding (R140); else what `body` says. Log entries 8 and 9. -/
def scalarStep (op : Nat) (cls : SClass) (regs : List Nat) (bad : Bool) (body : Cell → SRes) (c : Cell) : Cell :=
  if !scalarReady c.sc op then c
  else if 0x30000 ≤ c.sc.pc then (if fullHeld c.sc then scalarWait c op else scalarFault c 2 c.sc.pc)
  else if scalarHeld c.sc cls regs then scalarWait c op
  else if bad then scalarFault c 1 c.sc.pc
  else scalarEnd op c.sc.pc (body c)

/-- An instruction that only writes scalar state. -/
def scalarPure (f : Scalar → Scalar) (c : Cell) : SRes := .done { c with sc := f c.sc }

/-- The ALU instruction (R142). -/
def aluStep (x : XForm) (c : Cell) : Cell :=
  scalarStep 0x01 0 [x.ra.toNat, x.rb.toNat, x.rd.toNat] (aluBad x.fn.toNat x.rb.toNat || decide (x.u ≠ 0))
    (scalarPure (fun s => xset s x.rd.toNat (aluFn x.fn.toNat (xget s x.ra.toNat) (xget s x.rb.toNat)))) c

/-- An instruction of form I that computes rd from ra (R141). -/
def immStep (op : Nat) (i : IForm) (bad : Bool) (f : Word → Word) (c : Cell) : Cell :=
  scalarStep op 0 [i.ra.toNat, i.rd.toNat] bad
    (scalarPure (fun s => xset s i.rd.toNat (f (xget s i.ra.toNat)))) c

/-- A PC moved by a signed count of instructions (R140). -/
def pcPlus (pc : Nat) (k : Int) : Nat := (BitVec.ofInt 64 ((pc : Int) + 4 * k)).toNat

/-- A conditional branch (R141); `k` is its opcode minus 0x28. -/
def branchStep (k : Nat) (b : BForm) (c : Cell) : Cell :=
  scalarStep (0x28 + k) 0 [b.ra.toNat, b.rb.toNat] false
    (fun c =>
      if branchTaken k (xget c.sc b.ra.toNat) (xget c.sc b.rb.toNat)
      then .jump c (pcPlus c.sc.pc b.off.toInt) else .done c) c

/-- JAL (R141): the return address into x31. -/
def jalStep (off : BitVec 26) (c : Cell) : Cell :=
  scalarStep 0x2E 0 [31] false
    (fun c => .jump { c with sc := xset c.sc 31 (BitVec.ofNat 64 (c.sc.pc + 4)) } (pcPlus c.sc.pc off.toInt)) c

/-- JALR (R141): the low 2 bits of the target are ignored; ra is read before rd is written. -/
def jalrStep (i : IForm) (c : Cell) : Cell :=
  scalarStep 0x2F 0 [i.ra.toNat, i.rd.toNat] false
    (fun c =>
      .jump { c with sc := xset c.sc i.rd.toNat (BitVec.ofNat 64 (c.sc.pc + 4)) }
        (effAddr c.sc i.ra i.imm &&& ~~~ 3#64).toNat) c

/-- A local load (R143): bad address, the flush of a held row (R53), correction and poison (R58, R59). -/
def loadBody (n : Nat) (signed : Bool) (i : IForm) (c : Cell) : SRes :=
  match localAddr (effAddr c.sc i.ra i.imm) n with
  | none => .fault c 2
  | some (u, o) =>
    let r := (c.flushRow u (o / 64)).readRows 7 u (o / 64) 1
    let c := r.1
    if r.2 then .fault c 3
    else .done { c with sc := xset c.sc i.rd.toNat (loadExt n signed (ofLe (c.bytes u o n))) }

def loadStep (op n : Nat) (signed : Bool) (i : IForm) (c : Cell) : Cell :=
  scalarStep op 1 [i.ra.toNat, i.rd.toNat] false (loadBody n signed i) c

/-- A local store (R143) through the gather buffer (R51). -/
def storeBody (n : Nat) (i : IForm) (c : Cell) : SRes :=
  match localAddr (effAddr c.sc i.ra i.imm) n with
  | none => .fault c 2
  | some (u, o) => .done (c.gatherStore u o (toLe (xget c.sc i.rd.toNat).toNat n))

def storeStep (op n : Nat) (i : IForm) (c : Cell) : Cell :=
  scalarStep op 2 [i.ra.toNat, i.rd.toNat] false (storeBody n i) c

/-- The accesses a fence of a kind waits for (Table 10-2): FST and FATOM under release, FLD and FATOM under acquire. -/
def fenceIds (kind : Nat) (s : Scalar) : List Nat :=
  (s.outst.filter (fun a =>
    match kind with
    | 0 => decide (a.kind ≠ 0)
    | 1 => decide (a.kind ≠ 1)
    | _ => true)).map (·.id)

/-- A barrier put down; barriers whose condition holds go. -/
def addBarrier (s : Scalar) (b : Barrier) : Scalar :=
  { s with barriers := (s.barriers ++ [b]).filter (barrierLive s) }

/-- FENCE of a kind (R230, R231): it flushes the gather buffer; whom it holds waits at its own issue. -/
def fenceStep (kind : Nat) (r : FenceForm) (c : Cell) : Cell :=
  scalarStep 0x20 0 [] (decide (r.rd ≠ 0 ∨ r.ra ≠ 0 ∨ r.hi ≠ 0))
    (fun c =>
      let c := c.flushGather
      .done { c with sc := addBarrier c.sc ⟨fenceIds kind c.sc, kind⟩ }) c

/-- WAITEV (R152). -/
def waitevStep (x : XForm) (c : Cell) : Cell :=
  scalarStep 0x3E 0 [x.ra.toNat, x.rd.toNat] (decide (x.rb ≠ 0 ∨ x.u ≠ 0 ∨ x.fn ≠ 0))
    (fun c =>
      let a := xget c.sc x.ra.toNat
      if a ≠ 0 ∧ c.sc.events &&& a = 0 then .wait c
      else .done { c with sc := xset c.sc x.rd.toNat (c.sc.events &&& a) }) c

/-- CSRR (R152). -/
def csrrStep (e : Env) (y : SysForm) (c : Cell) : Cell :=
  scalarStep 0x101 0 [y.rd.toNat] (decide (y.ra ≠ 0 ∨ y.u ≠ 0 ∨ 7 < y.rb.toNat))
    (scalarPure (fun s => xset s y.rd.toNat (csrGet e s y.rb.toNat))) c

/-- CSRW (R152). -/
def csrwStep (y : SysForm) (c : Cell) : Cell :=
  scalarStep 0x102 0 [y.ra.toNat] (decide (y.rd ≠ 0 ∨ y.u ≠ 0 ∨ 7 < y.rb.toNat))
    (scalarPure (fun s => csrPut s y.rb.toNat (xget s y.ra.toNat))) c

end Sys2Proof.Machine
end

