-- ==== Sys2Proof/Machine/Matrix.lean ====
section
/-! DEFINITION. The matrix core (04_matrix_core.md): command fields and checks (R95, R102), accumulators and
checksum lines (R104, R105), the queue, interlocks, completion and faults (R91 to R93, R103), and the
commands but MMASP and PREVIEW. -/

namespace Sys2Proof.Machine

/-! Fields of Table 04-6. -/
def cOp (d : Word128) : Nat := bits d 127 122
def cAcc (d : Word128) : Nat := bits d 121 120
def cFmtA (d : Word128) : Nat := bits d 119 116
def cFmtB (d : Word128) : Nat := bits d 115 112
def cZero (d : Word128) : Bool := bit d 111
def cMask (d : Word128) : Bool := bit d 110
def cPbit (d : Word128) : Nat := bits d 109 104
def cPanelA (d : Word128) : Bool := bit d 103
def cPanelB (d : Word128) : Bool := bit d 102
def cGrpA (d : Word128) : Nat := bits d 101 99
def cGrpB (d : Word128) : Nat := bits d 98 96
def cKb (d : Word128) : Nat := bits d 95 88
def cSrcA (d : Word128) : Nat := bits d 87 72
def cSrcB (d : Word128) : Nat := bits d 71 56
def cSclA (d : Word128) : Nat := bits d 55 40
def cSclB (d : Word128) : Nat := bits d 39 24
def cOrient (d : Word128) : Bool := bit d 114
def cPair (d : Word128) : Bool := bit d 115
def cRnd (d : Word128) : Nat := bits d 113 112
def cSsup (d : Word128) : Bool := bit d 111
def cScale (d : Word128) : Nat := bits d 110 103
def cSq (d : Word128) : Nat := bits d 55 54
def cThresh (d : Word128) : Nat := bits d 55 48

/-- Bytes of a block group, Table 04-2. -/
def groupBytes (code : Nat) : Nat := 16 * payBytes code

/-- Lanes of a panel row (R88). -/
def panelLanes (code : Nat) : Nat := 512 / elemBits code

/-- The formats with a panel form (R88, R114): E2M1, E4M3, E5M2, BF16. -/
def hasPanel (code : Nat) : Bool := decide (code = 6 ∨ code = 2 ∨ code = 3 ∨ code = 1)

def isSmall (f : Nat) : Bool := decide (f = 4 ∨ f = 5 ∨ f = 6)
def isFp8 (f : Nat) : Bool := decide (f = 2 ∨ f = 3)
def isWeight (f : Nat) : Bool := decide (f = 7 ∨ f = 8)

/-- The format pairs of Table 04-3. -/
def pairOk (a b : Nat) : Bool :=
  (isSmall a && isSmall b) || (isFp8 a && (isFp8 b || isSmall b || isWeight b)) ||
    ((isSmall a || isWeight a) && isFp8 b) || decide (a = 1 ∧ b = 1)

/-- F of R81 for a pair. -/
def fracBits (a b : Nat) : Int := (mantBits a : Int) + (mantBits b : Int) + 1

/-- A memory reference whose extent of `rows` rows lies in its unit (R102). -/
def refOk (r rows : Nat) : Bool := decide (r / 4096 ≤ 8 ∧ 0 < rows ∧ r % 4096 + rows ≤ unitRows (r / 4096))

/-- Reserved bits that are not zero, given the mask of assigned bits (R95). -/
def strayBits (d : Word128) (assigned : Word128) : Bool := decide (d &&& ~~~ assigned ≠ 0)

def mmaBits : Word128 := fieldMask 128 127 24
def previewBits : Word128 := fieldMask 128 127 122 ||| fieldMask 128 109 104 ||| fieldMask 128 95 48
def ldaccBits : Word128 := fieldMask 128 127 116 ||| fieldMask 128 114 114 ||| fieldMask 128 87 72
def staccBits : Word128 := fieldMask 128 127 103 ||| fieldMask 128 87 54
def zaccBits : Word128 := fieldMask 128 127 122 ||| fieldMask 128 119 116
def seedBits : Word128 := fieldMask 128 127 122 ||| fieldMask 128 31 0
def setmaskBits : Word128 := fieldMask 128 127 122 ||| fieldMask 128 63 0
def syncBits : Word128 := fieldMask 128 127 122

/-- The encoding of one MMA operand (R88, R95, R96): panel form only where it exists and in the core's own
scratchpad; GRP in range; no scales for BF16. -/
def operBad (u fmt : Nat) (panel : Bool) (grp src scl : Nat) : Bool :=
  (if panel then !hasPanel fmt || decide (src / 4096 ≠ u ∨ panelLanes fmt / 16 ≤ grp) else decide (grp ≠ 0)) ||
    decide (fmt = 1 ∧ scl ≠ 0)

/-- Rows of an operand of `n` K-blocks, and of its scales (R102). -/
def operRows (fmt : Nat) (panel : Bool) (n : Nat) : Nat := if panel then 32 * n else n * groupBytes fmt / 64
def sclRows (fmt : Nat) (panel : Bool) (n : Nat) : Nat :=
  ceilDiv (n * (if panel then panelLanes fmt else 16)) 64

def operRefBad (fmt : Nat) (panel : Bool) (n src scl : Nat) : Bool :=
  !refOk src (operRows fmt panel n) || (decide (fmt ≠ 1) && !refOk scl (sclRows fmt panel n))

/-- Bytes of an accumulator lane in a STACC, and its payload rows, by FMT and PAIR (Table 04-7); none where the
table has no such shape. -/
def staccShape (fmt : Nat) (pair : Bool) : Option (Nat × Nat) :=
  match fmt, pair with
  | 0, false => some (64, 16)
  | 1, false => some (32, 8)
  | 1, true => some (64, 16)
  | 2, true => some (32, 8)
  | 3, true => some (32, 8)
  | 4, true => some (24, 6)
  | 5, true => some (24, 6)
  | 6, true => some (16, 4)
  | _, _ => none

/-- The check of a command at its begin (R102): 0, or the fault code. DST_SCL is checked as a memory reference only in a
STACC that writes scale bytes (DESIGN CHOICE, log entry 35). -/
def checkCommand (u : Nat) (d : Word128) : Nat :=
  let n := cKb d + 1
  match cOp d with
  | 0x01 =>
    if strayBits d mmaBits || !pairOk (cFmtA d) (cFmtB d) ||
        operBad u (cFmtA d) (cPanelA d) (cGrpA d) (cSrcA d) (cSclA d) ||
        operBad u (cFmtB d) (cPanelB d) (cGrpB d) (cSrcB d) (cSclB d) then 1
    else if operRefBad (cFmtA d) (cPanelA d) n (cSrcA d) (cSclA d) ||
        operRefBad (cFmtB d) (cPanelB d) n (cSrcB d) (cSclB d) then 2
    else 0
  | 0x03 =>
    if strayBits d mmaBits || !pairOk (cFmtA d) (cFmtB d) || decide (2 ≤ cGrpA d ∨ 2 ≤ cGrpB d) then 1
    else if !refOk (cSrcA d) 1 || !refOk (cSrcB d) 1 then 2
    else 0
  | 0x04 =>
    if strayBits d previewBits || decide (cThresh d = 255) then 1
    else if !refOk (cSrcA d) (4 * n) || !refOk (cSrcB d) (4 * n) then 2
    else 0
  | 0x08 => if strayBits d ldaccBits || decide (cFmtA d ≠ 0) then 1 else if !refOk (cSrcA d) 16 then 2 else 0
  | 0x09 =>
    match staccShape (cFmtA d) (cPair d) with
    | none => 1
    | some (_, rows) =>
      if strayBits d staccBits || (cPair d && decide (cAcc d % 2 = 1)) || (!cSsup d && decide (cScale d ≠ 0)) then 1
      else if !refOk (cSrcA d) rows || (decide (2 ≤ cFmtA d) && !refOk (cSrcB d) 1) then 2
      else 0
  | 0x0A => if strayBits d zaccBits then 1 else 0
  | 0x0C => if strayBits d seedBits then 1 else 0
  | 0x0D => if strayBits d setmaskBits then 1 else 0
  | 0x0F => if strayBits d syncBits then 1 else 0
  | _ => 1

/-! Accumulators and checksum lines. -/

/-- The 256 elements of an accumulator, row by row. -/
def Matrix.tile (m : Matrix) (a : Nat) : List Word32 := (List.range 256).map (fun k => mget 0 m.acc (a * 256 + k))

/-- The listed entries of values put at keys from `k` up. -/
def entriesFrom {α : Type} [DecidableEq α] (d : α) : Nat → List α → SMap α
  | _, [] => []
  | k, v :: vs => if v = d then entriesFrom d (k + 1) vs else (k, v) :: entriesFrom d (k + 1) vs

/-- The keys from `k`, `n` of them, given the values of a list. -/
def mfill {α : Type} [DecidableEq α] (d : α) (m : SMap α) (k n : Nat) (vs : List α) : SMap α :=
  m.filter (fun e => decide (e.1 < k)) ++ entriesFrom d k (vs.take n) ++ m.filter (fun e => decide (k + n ≤ e.1))

def Matrix.setTile (m : Matrix) (a : Nat) (t : List Word32) : Matrix := { m with acc := mfill 0 m.acc (a * 256) 256 t }

def Val.zero : Val := .fin false 0 0

def Matrix.lineSet (m : Matrix) (a kind : Nat) : List Val :=
  (List.range 16).map (fun k => mget Val.zero m.lines (a * 64 + kind * 16 + k))

def Matrix.setLines (m : Matrix) (a : Nat) (ls : List Val) : Matrix :=
  { m with lines := mfill Val.zero m.lines (a * 64) 64 ls }

def zeroTile : List Word32 := List.replicate 256 0
def zeroLines : List Val := List.replicate 64 Val.zero
def nanTile : List Word32 := List.replicate 256 0x7FC00000

/-- An accumulator zeroed, with its lines reset and its SUSPECT bit cleared (R96, R100, Table 04-10). -/
def Matrix.zeroAcc (m : Matrix) (a : Nat) : Matrix :=
  let m := (m.setTile a zeroTile).setLines a zeroLines
  { m with suspect := m.suspect &&& (15 - 2 ^ a), accParity := m.accParity &&& (15 - 2 ^ a) }

/-- A value held with a 64-bit significand, rounded to nearest even (R104). -/
def near64 (v : Val) : Val :=
  match v with
  | .fin n m e =>
    if m = 0 then Val.zero
    else if m < 2 ^ 64 then .fin n m e
    else let r := roundMag ⟨64, 0, false, 0, 0, 0⟩ 0 0 m e false; .fin n r.1 r.2
  | v => v

/-- A magnitude held with a 64-bit significand, rounded upward (R104). -/
def up64 (v : Val) : Val :=
  match v with
  | .fin n m e =>
    if m = 0 then Val.zero
    else if m < 2 ^ 64 then .fin n m e
    else
      let d := bitLen m - 64
      .fin n (if m % 2 ^ d = 0 then m >>> d else (m >>> d) + 1) (e + (d : Int))
  | v => v

/-- An element's step of the bound terms tr and tc (R104): the truncation of 32 products, and the rounding or the
flush of step 6 of R81. The manual's ulp(c) of an accumulator that a block cancels exactly to zero is taken as 0
(DESIGN CHOICE, log entry 35). -/
def errTerm (fbits : Int) (old new : Word32) (ps : List Val) (sa sb : Nat) : Val :=
  match blockPartial fbits ps with
  | none => Val.zero
  | some (x, q) =>
    let k := (sa : Int) - 127 + ((sb : Int) - 127)
    let e := Val.fin false 1 (q + 5 + k)
    if x = 0 then e
    else
      let s := (ofFp32 old).add (.fin (decide (x < 0)) x.natAbs (q + k))
      match ofFp32 new with
      | .fin _ m g =>
        if m = 0 then (if s.isZero then e else e.add (.fin false 1 (-126))) else e.add (.fin false 1 (g - 1))
      | _ => e

/-- One operand's block: 16 lanes of 32 values, and their scale codes. -/
structure OperBlock where
  lanes : List (List Val)
  scl : List Nat
deriving DecidableEq, Repr

def OperBlock.lane (o : OperBlock) (i : Nat) : List Val := (o.lanes[i]?).getD []
def OperBlock.scale (o : OperBlock) (i : Nat) : Nat := (o.scl[i]?).getD 127

/-- A tile and its four line sets while an array command runs. -/
structure ArrayAcc where
  tile : List Word32
  cr : List Val
  cc : List Val
  tr : List Val
  tc : List Val
deriving DecidableEq, Repr

/-- A list of values with one more added at each place by `f`, then held by `h`. -/
def addEach (h : Val → Val) (l : List Val) (f : Nat → Val) : List Val :=
  (List.range 16).map (fun i => h (((l[i]?).getD Val.zero).add (f i)))

/-- Terms added one after another, each sum rounded upward (R104). -/
def addUp (v : Val) (es : List Val) : Val := es.foldl (fun a e => up64 (a.add e)) v

def sumVals (l : List Val) : Val := l.foldl Val.add Val.zero

/-- Element `k` of a lane, scaled. -/
def scaled (o : OperBlock) (i k : Nat) : Val :=
  if o.scale i = 255 then .nan else (((o.lane i)[k]?).getD Val.zero).scale ((o.scale i : Int) - 127)

/-- One K-block added into every element and into the checksum lines (R81, R82, R104). -/
def arrayBlock (fbits : Int) (s : ArrayAcc) (a b : OperBlock) : ArrayAcc :=
  let old := fun (i j : Nat) => (s.tile[i * 16 + j]?).getD 0
  let idx := List.range 16
  let ks := List.range 32
  let new := idx.flatMap (fun i => idx.map (fun j =>
    accumulateBlock fbits (old i j) (a.lane i) (b.lane j) (a.scale i) (b.scale j)))
  let err := fun (i j : Nat) =>
    errTerm fbits (old i j) ((new[i * 16 + j]?).getD 0) (products (a.lane i) (b.lane j)) (a.scale i) (b.scale j)
  let sumA := ks.map (fun k => sumVals (idx.map (fun i => scaled a i k)))
  let sumB := ks.map (fun k => sumVals (idx.map (fun j => scaled b j k)))
  ⟨new,
    addEach near64 s.cr (fun j => sumVals (ks.map (fun k => ((sumA[k]?).getD Val.zero).mul (scaled b j k)))),
    addEach near64 s.cc (fun i => sumVals (ks.map (fun k => (scaled a i k).mul ((sumB[k]?).getD Val.zero)))),
    idx.map (fun j => addUp ((s.tr[j]?).getD Val.zero) (idx.map (fun i => err i j))),
    idx.map (fun i => addUp ((s.tc[i]?).getD Val.zero) (idx.map (fun j => err i j)))⟩

def Matrix.arrayAcc (m : Matrix) (a : Nat) : ArrayAcc :=
  ⟨m.tile a, m.lineSet a 0, m.lineSet a 1, m.lineSet a 2, m.lineSet a 3⟩

def ArrayAcc.lines (s : ArrayAcc) : List Val := s.cr ++ s.cc ++ s.tr ++ s.tc

def Matrix.setArrayAcc (m : Matrix) (a : Nat) (s : ArrayAcc) : Matrix := (m.setTile a s.tile).setLines a s.lines

/-! The check of R105. -/

def Val.abs : Val → Val
  | .fin _ m e => .fin false m e
  | .inf _ => .inf false
  | .nan => .nan

def Val.isFinite : Val → Bool
  | .fin _ _ _ => true
  | _ => false

/-- One line's check: none where it is not checked, else whether it trips. -/
def checkLine (shift : Nat) (ref bound : Val) (cs : List Val) : Option Bool :=
  if !ref.isFinite || cs.any (fun v => !v.isFinite) then none
  else
    let s := sumVals cs
    let m := cs.foldl (fun a v => up64 (a.add v.abs)) Val.zero
    some (((bound.add (m.scale (-40))).scale shift).lt (ref.add s.neg).abs)

/-- The 32 lines' checks of a result, columns before rows. -/
def checkLines (shift : Nat) (s : ArrayAcc) : List (Option Bool) :=
  let el := fun (i j : Nat) => ofFp32 ((s.tile[i * 16 + j]?).getD 0)
  let idx := List.range 16
  idx.map (fun j => checkLine shift ((s.cr[j]?).getD Val.zero) ((s.tr[j]?).getD Val.zero) (idx.map (fun i => el i j))) ++
    idx.map (fun i => checkLine shift ((s.cc[i]?).getD Val.zero) ((s.tc[i]?).getD Val.zero) (idx.map (fun j => el i j)))

/-! The queue (R91 to R93, R103). -/

/-- The units of Table 04-5: 0 array, 1 transfer, 2 control. -/
def unitKind (op : Nat) : Nat := if op = 1 ∨ op = 3 ∨ op = 4 then 0 else if op = 8 ∨ op = 9 then 1 else 2

def isMma (d : Word128) : Bool := decide (cOp d = 1 ∨ cOp d = 3)

/-- Whether a command will be skipped (R96). -/
def willSkip (m : Matrix) (d : Word128) : Bool := isMma d && cMask d && !bit m.pmask (cPbit d)

/-- Accumulators a command writes, as a mask. -/
def accWrites (d : Word128) (skipped : Bool) : Nat :=
  if isMma d then (if skipped && !cZero d then 0 else 2 ^ cAcc d)
  else if cOp d = 8 then 2 ^ cAcc d
  else if cOp d = 10 then cFmtA d
  else 0

/-- Accumulators a command reads when it begins (R92). -/
def accReads (d : Word128) (skipped : Bool) : Nat :=
  if isMma d then (if skipped || cZero d then 0 else 2 ^ cAcc d)
  else if cOp d = 9 then (if cPair d then 3 * 2 ^ cAcc d else 2 ^ cAcc d)
  else 0

/-- Accumulators a begun command goes on reading until it completes (R92). -/
def accHeld (b : Begun) : Nat := if isMma b.cmd && !b.skipped && !b.done then 2 ^ cAcc b.cmd else 0

/-- The last array command begun that was not skipped. -/
def lastArray (m : Matrix) : Option Begun :=
  (m.begun.filter (fun b => decide (b.unitKind = 0) && !b.skipped)).getLast?

/-- The interlocks of R92 and the unit conditions of R91 against one begun command. -/
def clearOf (m : Matrix) (d : Word128) (skip : Bool) (b : Begun) : Bool :=
  let w := if b.done then 0 else accWrites b.cmd b.skipped
  let chain := isMma d && !skip && !cZero d && decide (lastArray m = some b) && decide (cAcc d = cAcc b.cmd) && isMma b.cmd
  (chain || decide (accReads d skip &&& w = 0)) && (chain || decide (accWrites d skip &&& accHeld b = 0)) &&
    (!skip || decide (accWrites d skip &&& w = 0)) &&
    (!(isMma d && cMask d) || b.done || decide (cOp b.cmd ≠ 4 ∧ cOp b.cmd ≠ 13))

/-- Begun commands of a unit that have not completed. -/
def busyCount (m : Matrix) (k : Nat) : Nat :=
  (m.begun.filter (fun b => decide (b.unitKind = k) && !b.done && !b.skipped)).length

/-- Whether the head command may begin (R91, R92). Log entry 11. -/
def mayBegin (m : Matrix) (d : Word128) : Bool :=
  let skip := willSkip m d
  m.begun.all (clearOf m d skip) && m.begun.all (fun b => decide (b.fc = 0)) &&
    (skip || decide (unitKind (cOp d) = 2) || decide (busyCount m (unitKind (cOp d)) ≤ 1))

/-- The command at the head of the queue that has opcode `op`, passes its checks and may begin. -/
def readyHead (c : Cell) (u op : Nat) : Option Word128 :=
  let m := c.mat u
  match m.queue with
  | d :: _ =>
    if cOp d = op ∧ m.fault = 0 ∧ checkCommand u d = 0 ∧ mayBegin m d = true then some d else none
  | [] => none

/-- A fault recorded (R103): the rest of the queue goes, and the matrix-fault event is raised. -/
def matrixFault (c : Cell) (u code : Nat) : Cell :=
  let c := c.setMat u { c.mat u with fault := code, queue := [], begun := [] }
  { c with sc := setEvent c.sc u }

/-- A failing command's fault once every earlier command has completed (R102). -/
def matrixSettle (c : Cell) (u : Nat) : Cell :=
  let m := c.mat u
  match m.queue, m.begun with
  | d :: _, [] => if m.fault = 0 ∧ checkCommand u d ≠ 0 then matrixFault c u (checkCommand u d) else c
  | _, _ => c

/-- The head command moved to the begun ones. -/
def beginHead (c : Cell) (u : Nat) (b : Begun) : Cell :=
  let m := c.mat u
  c.setMat u { m with queue := m.queue.tail, begun := m.begun ++ [b] }

/-- What the begun commands leave in PMASK (R97, R100). -/
def applyMask (pm : Word) (b : Begun) : Word :=
  if cOp b.cmd = 13 then b.cmd.setWidth 64
  else if cOp b.cmd = 4 then setBits pm (cPbit b.cmd) (cPbit b.cmd) (ofBool b.keep)
  else pm

/-- COMPLETED advanced over the completed commands in front, in queue order (R93); a faulting one's turn ends in its
fault (R103). -/
def matrixAdvance (u : Nat) : Nat → Cell → Cell
  | 0, c => c
  | n + 1, c =>
    let m := c.mat u
    match m.begun with
    | b :: bs =>
      if !b.done then c
      else if b.fc ≠ 0 then matrixFault c u b.fc
      else
        let c := c.setMat u { m with begun := bs, completed := (m.completed + 1) % 65536 }
        matrixAdvance u n (c.note (.count 1 1 u 1))
    | [] => c

/-- A trip of R105: the SUSPECT bit, the check-trip event, an error record. -/
def matrixTrip (c : Cell) (u a : Nat) : Cell :=
  let m := c.mat u
  let c := c.setMat u { m with suspect := m.suspect ||| 2 ^ a }
  { c with sc := setEvent c.sc (6 + u), notes := c.notes ++ [.count 1 5 u 1, .trip u a] }

/-- The result and the lines that an MMA's own end checks: a chained one may have added to them since (R92, R105). -/
def Begun.result (b : Begun) : ArrayAcc :=
  ⟨b.tile, b.lines.take 16, (b.lines.drop 16).take 16, (b.lines.drop 32).take 16, b.lines.drop 48⟩

/-- The check at the end of an MMA or MMASP (R105), where CHK_EN is 1 (R106). -/
def matrixCheck (e : Env) (c : Cell) (u : Nat) (b : Begun) : Cell :=
  let a := cAcc b.cmd
  if !bit e.matrixCtrl 0 then c
  else
    let rs := checkLines (bits e.matrixCtrl 11 8) b.result
    let un := (rs.filter (fun r => decide (r = none))).length
    let c := { c with notes := c.notes ++ [.count 1 4 u 1] ++ (if un = 0 then [] else [.count 1 6 u un]) }
    (rs.filter (fun r => decide (r = some true))).foldl (fun c _ => matrixTrip c u a) c

/-- A begun command's completion (R93): its check, PMASK in queue order (R125), COMPLETED, and the next command's
pending fault. A SYNC completes only when every earlier one has. -/
def matrixComplete (e : Env) (u i : Nat) (c : Cell) : Cell :=
  let m := c.mat u
  match m.begun[i]? with
  | none => c
  | some b =>
    if b.done || (decide (cOp b.cmd = 15) && (m.begun.take i).any (fun x => !x.done)) then c
    else
      let bs := m.begun.set i { b with done := true }
      let pm := if b.fc ≠ 0 then m.pmask else ((bs.drop i).filter (·.done)).foldl applyMask m.pmask
      let c := c.setMat u { m with begun := bs, pmask := pm }
      let c := if isMma b.cmd && !b.skipped && decide (b.fc = 0) then matrixCheck e c u b else c
      matrixSettle (matrixAdvance u bs.length c) u

/-- A push of MCPUSH (R91, R145): none where the queue is full. -/
def matrixPush (c : Cell) (u : Nat) (d : Word128) : Option Cell :=
  let m := c.mat u
  if 8 ≤ m.queue.length then none
  else some (matrixSettle (c.setMat u { m with queue := m.queue ++ [d], accepted := (m.accepted + 1) % 65536 }) u)

/-- MC_STATUS (Table 04-10). -/
def mcStatus (m : Matrix) : Word :=
  BitVec.ofNat 64 (m.fault % 256 * 2 ^ 48 + m.suspect % 16 * 2 ^ 44 + m.queue.length % 16 * 2 ^ 40 +
    ofBool (decide (0 < busyCount m 0)) * 2 ^ 35 + ofBool (decide (0 < busyCount m 1)) * 2 ^ 34 +
    m.completed * 2 ^ 16 + m.accepted)

/-- Whether every accepted command has completed, or the core holds a fault (R150). -/
def matrixDrained (m : Matrix) : Bool := decide (m.fault ≠ 0) || (m.queue.isEmpty && m.begun.isEmpty)

/-! Reading operands. A read that comes back bad ends the command with 0x03 (Table 04-9). -/

/-- Reads of a command: the cell as the reads leave it, and a fault code or what was read. -/
abbrev Rd := ExceptT Nat (StateM Cell)

/-- `n` bytes at an offset of a unit, read row by row by an engine whose direct port is `own`. -/
def rdBytes (own unit off n : Nat) : Rd (List Byte) :=
  if n = 0 then pure []
  else do
    let c ← get
    let r := c.readRows own unit (off / 64) (ceilDiv (off % 64 + n) 64)
    set r.1
    if r.2 then throw 3
    return r.1.bytes unit off n

/-- A plain operand's block `kb` (R87). -/
def rdPlain (u fmt src scl kb : Nat) : Rd OperBlock := do
  let g ← rdBytes u (src / 4096) (src % 4096 * 64 + kb * groupBytes fmt) (groupBytes fmt)
  let s ← if fmt = 1 then pure (List.replicate 16 (0x7F : Byte))
    else rdBytes u (scl / 4096) (scl % 4096 * 64 + kb * 16) 16
  let ss := s.map BitVec.toNat
  return ⟨(List.range 16).map (fun i => blockVals fmt (le g (i * payBytes fmt) (payBytes fmt)) ((ss[i]?).getD 0)), ss⟩

/-- A panel operand's block `kb` (R88). -/
def rdPanel (u fmt src scl grp kb : Nat) : Rd OperBlock := do
  let w := elemBits fmt
  let l := panelLanes fmt
  let g ← rdBytes u (src / 4096) ((src % 4096 + 32 * kb) * 64) 2048
  let s ← if fmt = 1 then pure (List.replicate 16 (0x7F : Byte))
    else rdBytes u (scl / 4096) (scl % 4096 * 64 + kb * l + 16 * grp) 16
  let ss := s.map BitVec.toNat
  return ⟨(List.range 16).map (fun i => (List.range 32).map (fun k =>
    if (ss[i]?).getD 0 = 255 then .nan
    else elemVal fmt (le g (64 * k) 64 / 2 ^ ((16 * grp + i) * w) % 2 ^ w))), ss⟩

def rdOper (u fmt : Nat) (panel : Bool) (src scl grp kb : Nat) : Rd OperBlock :=
  if panel then rdPanel u fmt src scl grp kb else rdPlain u fmt src scl kb

/-- The blocks of an MMA from `kb` on (R96 step 3). -/
def mmaBlocks (u : Nat) (d : Word128) : Nat → Nat → ArrayAcc → Rd ArrayAcc
  | 0, _, s => pure s
  | n + 1, kb, s => do
    let a ← rdOper u (cFmtA d) (cPanelA d) (cSrcA d) (cSclA d) (cGrpA d) kb
    let b ← rdOper u (cFmtB d) (cPanelB d) (cSrcB d) (cSclB d) (cGrpB d) kb
    mmaBlocks u d n (kb + 1) (arrayBlock (fracBits (cFmtA d) (cFmtB d)) s a b)

/-- An accumulator word's parity error found when the accumulator is read (Table 04-9, 0x04). -/
def parityBad (m : Matrix) (mask : Nat) : Bool := decide (m.accParity &&& mask ≠ 0)

/-- The accumulators of a mask set to canonical NaN. -/
def nanAccs (m : Matrix) (mask : Nat) : Matrix :=
  let m := (List.range 4).foldl (fun m a => if mask / 2 ^ a % 2 = 1 then m.setTile a nanTile else m) m
  { m with accParity := m.accParity &&& (15 - mask % 16) }

/-- An array command as it begins. -/
def arrayBegun (d : Word128) (skipped : Bool) (fc : Nat) : Begun := ⟨d, 0, skipped, false, fc, false, [], []⟩

/-- A transfer or a control command as it begins. -/
def otherBegun (d : Word128) (kind fc : Nat) : Begun := ⟨d, kind, false, false, fc, false, [], []⟩

/-- The common frame of MMA and MMASP (R96): the skip, the start, the blocks, a fault's effect on the accumulator; a
metadata fault leaves SUSPECT as it was before the start (R119). -/
def arrayRun (u : Nat) (d : Word128) (blocks : ArrayAcc → Rd (ArrayAcc × Nat)) (c : Cell) : Cell :=
  let m := c.mat u
  let a := cAcc d
  if willSkip m d then
    let c := beginHead c u (arrayBegun d true 0)
    let c := if cZero d then c.setMat u ((c.mat u).zeroAcc a) else c
    c.note (.count 1 3 u 1)
  else
    let old := m.suspect
    let c := if cZero d then c.setMat u (m.zeroAcc a) else c
    let m := c.mat u
    if parityBad m (2 ^ a) then
      let c := beginHead c u (arrayBegun d false 4)
      (c.setMat u (nanAccs (c.mat u) (2 ^ a))).note (.accum u)
    else
      let r := (blocks (m.arrayAcc a)).run c
      match r.1 with
      | .ok (s, n) =>
        let c := beginHead r.2 u { arrayBegun d false 0 with tile := s.tile, lines := s.lines }
        (c.setMat u ((c.mat u).setArrayAcc a s)).note (.count 1 2 u n)
      | .error code =>
        let c := beginHead r.2 u (arrayBegun d false code)
        let x := (c.mat u).setTile a nanTile
        c.setMat u (if 16 ≤ code then { x.setLines a zeroLines with suspect := old } else x)

/-- MMA begins (R96). -/
def mmaStep (u : Nat) (c : Cell) : Cell :=
  match readyHead c u 0x01 with
  | none => c
  | some d =>
    arrayRun u d (fun s => do
      let r ← mmaBlocks u d (cKb d + 1) 0 s
      return (r, cKb d + 1)) c

/-- An FP32 code as LDACC takes it in: flushed, NaN canonical (R70, R71). -/
def flush32 (w : Word32) : Word32 := toFp32 0 0 (ofFp32 w) false

/-- The transpose of a 16 by 16 tile. -/
def transTile (t : List Word32) : List Word32 :=
  (List.range 256).map (fun k => (t[k % 16 * 16 + k / 16]?).getD 0)

/-- The lines of a loaded tile (R98): its sums as references, bounds zero. -/
def loadedLines (t : List Word32) : List Val :=
  let el := fun (i j : Nat) => ofFp32 ((t[i * 16 + j]?).getD 0)
  let idx := List.range 16
  idx.map (fun j => near64 (sumVals (idx.map (fun i => el i j)))) ++
    idx.map (fun i => near64 (sumVals (idx.map (fun j => el i j)))) ++ List.replicate 32 Val.zero

/-- LDACC begins (R98). -/
def ldaccStep (u : Nat) (c : Cell) : Cell :=
  match readyHead c u 0x08 with
  | none => c
  | some d =>
    let a := cAcc d
    let r := (rdBytes u (cSrcA d / 4096) (cSrcA d % 4096 * 64) 1024).run c
    match r.1 with
    | .ok bs =>
      let t := (List.range 256).map (fun k => flush32 (BitVec.ofNat 32 (le bs (4 * k) 4)))
      let t := if cOrient d then transTile t else t
      let c := beginHead r.2 u (otherBegun d 1 0)
      let m := (((c.mat u).zeroAcc a).setTile a t).setLines a (loadedLines t)
      c.setMat u m
    | .error code =>
      let c := beginHead r.2 u (otherBegun d 1 code)
      c.setMat u (nanAccs (c.mat u) (2 ^ a))

/-- The accumulator positions (accumulator, element) of lane `i` of a store, in element order (R99). -/
def lanePos (orient pair : Bool) (i : Nat) : List (Nat × Nat) :=
  (List.range (if pair then 32 else 16)).map (fun e =>
    (e / 16, if orient then e % 16 * 16 + i else i * 16 + e % 16))

/-- One lane of a store as bytes, with its scale code (R99). -/
def storeLane (d : Word128) (tiles : List (List Word32)) (draws : List Nat) (i : Nat) : List Byte × Nat :=
  let ps := lanePos (cOrient d) (cPair d) i
  let ws := ps.map (fun p => ((((tiles[p.1]?).getD [])[p.2]?).getD 0, (draws[p.1 * 256 + p.2]?).getD 0))
  match cFmtA d with
  | 0 => (ws.flatMap (fun w => toLe w.1.toNat 4), 0)
  | 1 => (ws.flatMap (fun w => toLe (toBf16 (cRnd d) w.2 (ofFp32 w.1) false).toNat 2), 0)
  | f =>
    let b := toMxDraws f (cRnd d) (if cSsup d then some (cScale d) else none) (ws.map (fun w => ofFp32 w.1))
      (ws.map (·.2))
    (toLe b.2 (payBytes f), b.1)

/-- Rows written one after another from a row of a unit by the core `own` (R94); a crossbar transfer that fails parity
twice ends them (R59, Table 04-9). -/
def writeRows (own : Nat) (c : Cell) (unit row : Nat) (bs : List Byte) : Nat → Cell × Bool
  | 0 => (c, true)
  | n + 1 =>
    let p := c.crossing (decide (unit = own))
    if p.2 then writeRows own (p.1.write unit (row * 64) (bs.take 64)) unit (row + 1) (bs.drop 64) n else p

/-- A store's scale bytes (R99), one whole-word masked write. -/
def writeScales (own : Nat) (d : Word128) (ls : List (List Byte × Nat)) (c : Cell) : Cell × Bool :=
  let p := c.crossing (decide (cSrcB d / 4096 = own))
  if p.2 then (p.1.write (cSrcB d / 4096) (cSrcB d % 4096 * 64 + cSq d * 16) (ls.map (fun l => BitVec.ofNat 8 l.2)), true)
  else p

/-- The lanes of a store written (R99): its payload rows, and the scale bytes of an MX format. -/
def writeLanes (own : Nat) (d : Word128) (rows : Nat) (ls : List (List Byte × Nat)) (c : Cell) : Cell × Bool :=
  let p := writeRows own c (cSrcA d / 4096) (cSrcA d % 4096) (ls.flatMap (·.1)) rows
  if p.2 && decide (2 ≤ cFmtA d) then writeScales own d ls p.1 else p

/-- STACC begins (R99): its conversion, payload rows and scale bytes. -/
def staccStep (u : Nat) (c : Cell) : Cell :=
  match readyHead c u 0x09 with
  | none => c
  | some d =>
    match staccShape (cFmtA d) (cPair d) with
    | none => c
    | some (_, rows) =>
      let m := c.mat u
      let a := cAcc d
      let mask := if cPair d then 3 * 2 ^ a else 2 ^ a
      if parityBad m mask then
        let c := beginHead c u (otherBegun d 1 4)
        (c.setMat u (nanAccs (c.mat u) (m.accParity &&& mask))).note (.accum u)
      else
        let tiles := if cPair d then [m.tile a, m.tile (a + 1)] else [m.tile a]
        let mode := if cFmtA d = 0 then 0 else cRnd d
        let dr := blockDraws mode (256 * tiles.length) m.sr
        let lanes := (List.range 16).map (storeLane d tiles dr.1)
        let p := writeLanes u d rows lanes c
        let c := beginHead p.1 u (otherBegun d 1 (if p.2 then 0 else 3))
        let c := c.setMat u { c.mat u with sr := dr.2 }
        let nan := if cFmtA d < 2 then 0 else (lanes.filter (fun l => decide (l.2 = 255))).length
        if nan = 0 then c else c.note (.count 1 7 u nan)

/-- A control command begins: what it does to the core's own state (R100). -/
def controlStep (op u : Nat) (f : Word128 → Matrix → Matrix) (c : Cell) : Cell :=
  match readyHead c u op with
  | none => c
  | some d =>
    let c := beginHead c u (otherBegun d 2 0)
    c.setMat u (f d (c.mat u))

/-- ZACC (R100). -/
def zaccStep (u : Nat) (c : Cell) : Cell :=
  controlStep 0x0A u (fun d m =>
    (List.range 4).foldl (fun m a => if cFmtA d / 2 ^ a % 2 = 1 then m.zeroAcc a else m) m) c

/-- SEED (R75, R100). -/
def seedStep (u : Nat) (c : Cell) : Cell := controlStep 0x0C u (fun d m => { m with sr := srSeed (d.setWidth 32) }) c

/-- SETMASK (R100): PMASK changes when it completes. -/
def setmaskStep (u : Nat) (c : Cell) : Cell := controlStep 0x0D u (fun _ m => m) c

/-- SYNC (R93). -/
def syncStep (u : Nat) (c : Cell) : Cell := controlStep 0x0F u (fun _ m => m) c

end Sys2Proof.Machine
end

