-- ==== Sys2Proof/Machine/Sparse.lean ====
section
/-! DEFINITION. Block-sparse operands (R107 to R114), their metadata checks (R118), MMASP (R115 to R119) and
PREVIEW (R97, R123 to R125). The fly engine makes its own checks with the same header (R120). -/

namespace Sys2Proof.Machine

/-- A block-sparse header (Table 05-1). -/
structure Header where
  tag : Nat
  fmt : Nat
  flags : Nat
  lbn : Nat
  kbn : Nat
  capR : Nat
  capC : Nat
  nnz : Nat
  rows : Nat
  cols : Nat
  list : Nat
  blocks : Nat
  blockBytes : Nat
  total : Nat
  rsv : Nat
deriving DecidableEq, Repr

def parseHeader (b : List Byte) : Header :=
  ⟨le b 0 2, le b 2 1, le b 3 1, le b 4 2, le b 6 2, le b 8 2, le b 10 2, le b 12 4, le b 16 4, le b 20 4, le b 24 4,
    le b 28 4, le b 32 4, le b 36 4, le b 40 24⟩

def Header.dense (h : Header) : Bool := decide (h.flags % 2 = 1)
def Header.balanced (h : Header) : Bool := decide (h.flags / 2 % 2 = 1)
def Header.uniscale (h : Header) : Bool := decide (h.flags / 4 % 2 = 1)

/-- Half payload rows H of a packed block (Table 05-2). -/
def halfRows (fmt : Nat) : Nat := groupBytes fmt / 64

/-- Bytes of a packed block (Table 05-2): BF16 has no scale row. -/
def packedBytes (fmt : Nat) : Nat := (2 * halfRows fmt + (if fmt = 1 then 0 else 1)) * 64

/-- The row stride RS (R108). -/
def Header.rs (h : Header) : Nat := 8 * (1 + ceilDiv h.kbn 64)

/-- The section offsets of a header that is not DENSE, and of one that is (Table 05-1, R112). -/
def Header.offsetsOk (h : Header) : Bool :=
  if h.dense then
    decide (h.capR = h.kbn ∧ h.capC = h.lbn ∧ h.nnz = h.lbn * h.kbn ∧ h.rows = 0 ∧ h.cols = 0 ∧ h.list = 0 ∧ h.blocks = 64)
  else
    aligned h.rows 64 && aligned h.cols 64 && aligned h.list 64 && aligned h.blocks 64 &&
      decide (64 ≤ h.rows ∧ h.rows + h.lbn * h.rs ≤ h.cols ∧ h.cols + h.kbn * 8 ≤ h.list ∧ h.list + h.nnz * 8 ≤ h.blocks)

/-- The header checks 0x10 to 0x13 (Table 05-3), with the bytes there are from the header to the end of its unit or
stratum; 0 when all hold. -/
def headerCode (h : Header) (room : Nat) : Nat :=
  if h.tag ≠ 0xB5A1 then 0x10
  else if h.fmt < 1 ∨ 8 < h.fmt ∨ 8 ≤ h.flags ∨ h.rsv ≠ 0 ∨ h.lbn < 1 ∨ 4096 < h.lbn ∨ h.kbn < 1 ∨ 4096 < h.kbn ∨
      h.offsetsOk = false ∨ h.blockBytes ≠ packedBytes h.fmt ∨ h.total ≠ h.blocks + h.nnz * h.blockBytes then 0x11
  else if room < h.total then 0x12
  else if h.kbn < h.capR ∨ h.lbn < h.capC ∨ h.lbn * h.capR < h.nnz ∨ h.kbn * h.capC < h.nnz then 0x13
  else 0

/-- Which use of a matrix a command or a check makes. -/
def Header.transposable (h : Header) : Bool := (h.dense || h.balanced) && h.uniscale && hasPanel h.fmt

/-- The command's operand against its header (R118): 0x1C, then 0x1E. -/
def operandCode (h : Header) (fmt l kb : Nat) (tr : Bool) : Nat :=
  if tr && !h.transposable then 0x1C
  else if fmt ≠ h.fmt ∨ (if tr then h.kbn else h.lbn) ≤ l ∨ (if tr then h.lbn else h.kbn) < kb + 1 then 0x1E
  else 0

/-- The bitmap of a row entry, as one number (R109). -/
def rowBitmap (h : Header) (e : List Byte) : Nat := le e 8 (h.rs - 8)

/-- The checks of one row entry by the matrix core (Table 05-3). -/
def rowCode (h : Header) (e : List Byte) : Nat :=
  let first := le e 0 4
  let count := le e 4 2
  let bm := rowBitmap h e
  if count ≠ popcount (8 * (h.rs - 8)) bm then 0x14
  else if h.capR < count then 0x15
  else if h.nnz < first + count then 0x16
  else if 2 ^ h.kbn ≤ bm ∨ le e 6 2 ≠ 0 then 0x17
  else 0

/-- The checks of one column word by the matrix core (Table 05-3). -/
def colCode (h : Header) (w : List Byte) : Nat :=
  if h.capC < le w 4 2 then 0x18 else if h.nnz < le w 0 4 + le w 4 2 then 0x1A else 0

/-- The checks of a column's list entries in order (Table 05-3); `prev`: one more than the LROW before. -/
def listCode (h : Header) (es : List Byte) (prev : Nat) : Nat → Nat
  | 0 => 0
  | n + 1 =>
    let w := le es 0 8
    let index := w % 2 ^ 32
    let lrow := w / 2 ^ 32 % 2 ^ 12
    if lrow < prev ∨ h.lbn ≤ lrow ∨ 2 ^ 44 ≤ w then 0x19
    else if h.nnz ≤ index then 0x1A
    else listCode h (es.drop 8) (lrow + 1) n

/-- A metadata check's outcome as a read's. -/
def orCode (code : Nat) : Rd Unit := if code = 0 then pure () else throw code

/-- The present K-blocks of an operand up to `kb`, with their packed indices, in increasing order (R116). -/
def scanOperand (u unit off : Nat) (h : Header) (l kb : Nat) (tr : Bool) : Rd (List (Nat × Nat)) := do
  if h.dense then
    return (List.range (kb + 1)).map (fun c => (c, if tr then c * h.kbn + l else l * h.kbn + c))
  else if !tr then
    let e ← rdBytes u unit (off + h.rows + l * h.rs) h.rs
    orCode (rowCode h e)
    let bm := rowBitmap h e
    return ((List.range (kb + 1)).filter (fun c => decide (bm / 2 ^ c % 2 = 1))).map
      (fun c => (c, le e 0 4 + popcount c bm))
  else
    let w ← rdBytes u unit (off + h.cols + l * 8) 8
    orCode (colCode h w)
    let n := le w 4 2
    let es ← rdBytes u unit (off + h.list + le w 0 4 * 8) (n * 8)
    orCode (listCode h es 0 n)
    return ((List.range n).map (fun s => (le es (8 * s + 4) 4 % 2 ^ 12, le es (8 * s) 4))).filter
      (fun p => decide (p.1 ≤ kb))

/-- One packed block as an operand block (R111, R116); in transposed use its scale codes must be equal (0x1D). -/
def rdPacked (u unit off : Nat) (h : Header) (k half : Nat) (tr : Bool) : Rd OperBlock := do
  let p := payBytes h.fmt
  let g := groupBytes h.fmt
  let base := off + h.blocks + k * h.blockBytes
  if !tr then
    let pay ← rdBytes u unit (base + half * g) g
    let s ← if h.fmt = 1 then pure (List.replicate 16 (0x7F : Byte)) else rdBytes u unit (base + 2 * g + 16 * half) 16
    let ss := s.map BitVec.toNat
    return ⟨(List.range 16).map (fun i => blockVals h.fmt (le pay (i * p) p) ((ss[i]?).getD 0)), ss⟩
  else
    let s ← if h.fmt = 1 then pure (List.replicate 32 (0x7F : Byte)) else rdBytes u unit (base + 2 * g) 32
    let sc := (s.headD 0).toNat
    orCode (if s.all (fun x => decide (x.toNat = sc)) then 0 else 0x1D)
    let pay ← rdBytes u unit base (2 * g)
    let lanes := (List.range 32).map (fun k => blockVals h.fmt (le pay (k / 16 * g + k % 16 * p) p) sc)
    return ⟨(List.range 16).map (fun i => lanes.map (fun l => (l[16 * half + i]?).getD Val.zero)),
      List.replicate 16 sc⟩

/-- The processed blocks in increasing order of K-block (R116). -/
def spBlocks (u : Nat) (d : Word128) (ha hb : Header) (oa ob : Nat) (pb : List (Nat × Nat)) :
    List (Nat × Nat) → ArrayAcc → Nat → Rd (ArrayAcc × Nat)
  | [], s, n => pure (s, n)
  | (kb, ka) :: rest, s, n => do
    match pb.find? (fun p => decide (p.1 = kb)) with
    | none => spBlocks u d ha hb oa ob pb rest s n
    | some (_, kbIx) =>
      let a ← rdPacked u (cSrcA d / 4096) oa ha ka (cGrpA d % 2) (cPanelA d)
      let b ← rdPacked u (cSrcB d / 4096) ob hb kbIx (cGrpB d % 2) (cPanelB d)
      spBlocks u d ha hb oa ob pb rest (arrayBlock (fracBits (cFmtA d) (cFmtB d)) s a b) (n + 1)

/-- What MMASP reads and multiplies (R115 to R118). In steps 2 and 3 of R118, as in its headers, A's checks come before
B's (DESIGN CHOICE, log entry 35). -/
def mmaspRun (u : Nat) (d : Word128) (s : ArrayAcc) : Rd (ArrayAcc × Nat) := do
  let ua := cSrcA d / 4096
  let ub := cSrcB d / 4096
  let oa := cSrcA d % 4096 * 64
  let ob := cSrcB d % 4096 * 64
  let ba ← rdBytes u ua oa 64
  let ha := parseHeader ba
  orCode (headerCode ha (unitBytes ua - oa))
  let bb ← rdBytes u ub ob 64
  let hb := parseHeader bb
  orCode (headerCode hb (unitBytes ub - ob))
  orCode (operandCode ha (cFmtA d) (cSclA d) (cKb d) (cPanelA d))
  orCode (operandCode hb (cFmtB d) (cSclB d) (cKb d) (cPanelB d))
  let pa ← scanOperand u ua oa ha (cSclA d) (cKb d) (cPanelA d)
  let pb ← scanOperand u ub ob hb (cSclB d) (cKb d) (cPanelB d)
  spBlocks u d ha hb oa ob pb pa s 0

/-- MMASP begins (R116). -/
def mmaspStep (u : Nat) (c : Cell) : Cell :=
  match readyHead c u 0x03 with
  | none => c
  | some d => arrayRun u d (mmaspRun u d) c

/-! Sketches (R123 to R125). -/

/-- A sketch code's value (R123). -/
def sketchVal (code : Nat) : Nat :=
  match code % 4 with
  | 0 => 0
  | 1 => 1
  | 2 => 4
  | _ => 16

/-- The sketch code of a value against a reference exponent (R123). -/
def sketchCode (e : Int) (v : Val) : Nat :=
  match v with
  | .fin _ m g =>
    if m = 0 then 0
    else
      let k := flog2 m g
      if e + 3 ≤ k then 3 else if e + 1 ≤ k then 2 else if e - 1 ≤ k then 1 else 0
  | _ => 3

/-- The 32 sketch values of lane `l` in a sketch block group (R124). -/
def sketchLane (g : List Byte) (l : Nat) : List Nat :=
  (unpackElems 2 (le g (8 * l) 8)).map sketchVal

def dot : List Nat → List Nat → Nat
  | a :: as, b :: bs => a * b + dot as bs
  | _, _ => 0

/-- The sums S(i, j) after a run of sketch block groups (R125). -/
def sketchSums (u : Nat) (d : Word128) : Nat → Nat → List Nat → Rd (List Nat)
  | 0, _, s => pure s
  | n + 1, kb, s => do
    let a ← rdBytes u (cSrcA d / 4096) (cSrcA d % 4096 * 64 + 256 * kb) 256
    let b ← rdBytes u (cSrcB d / 4096) (cSrcB d % 4096 * 64 + 256 * kb) 256
    let la := (List.range 32).map (sketchLane a)
    let lb := (List.range 32).map (sketchLane b)
    sketchSums u d n (kb + 1)
      ((List.range 1024).map (fun k => (s[k]?).getD 0 + dot ((la[k / 32]?).getD []) ((lb[k % 32]?).getD [])))

/-- Whether an estimate is at least 2^(THRESH - 127) (R97). -/
def keeps (est thresh : Nat) : Bool :=
  if 127 ≤ thresh then decide (2 ^ (thresh - 127) ≤ est) else decide (1 ≤ est)

/-- PREVIEW begins (R97, R125); PMASK changes when it completes. -/
def previewStep (u : Nat) (c : Cell) : Cell :=
  match readyHead c u 0x04 with
  | none => c
  | some d =>
    let r := (sketchSums u d (cKb d + 1) 0 (List.replicate 1024 0)).run c
    match r.1 with
    | .ok s => beginHead r.2 u { arrayBegun d false 0 with keep := keeps (s.foldl Nat.max 0) (cThresh d) }
    | .error code => beginHead r.2 u (arrayBegun d false code)

end Sys2Proof.Machine
end

