-- ==== Sys2Proof/Machine/Fly.lean ====
section
/-! DEFINITION. The fly engine's own side (R196 to R204, R212): descriptors and their checks, transfers, the next
request of a transfer, replies, completions, and requests served for others. Log entry 12. -/

namespace Sys2Proof.Machine

/-! Fabric addresses (Tables 01-9 and 01-11). -/
def faDev (a : Word) : Nat := bits a 63 52
def faSpace (a : Word) : Nat := bits a 51 48
def faOff (a : Word) : Nat := bits a 47 0
def faField (a : Word) : Nat := bits a 46 40
def faCell (a : Word) : Nat := bits a 39 31
def faUnit (a : Word) : Nat := bits a 30 27
def faByte (a : Word) : Nat := bits a 17 0

/-- Whether an address lies in the engine's own cell: a near end (R197). -/
def isNear (e : Env) (a : Word) : Bool :=
  decide (faSpace a = 1 ∧ faDev a = e.device ∧ faField a = e.field ∧ faCell a = e.lcell)

/-! Descriptors (Table 08-5). -/
def dOp (d : List Byte) : Nat := le d 0 1
def dFlags (d : List Byte) : Nat := le d 1 1
def dSparse (d : List Byte) : Bool := decide (dFlags d % 2 = 1)
def dLedger (d : List Byte) : Bool := decide (dFlags d / 2 % 2 = 1)
def dOrder (d : List Byte) : Nat := dFlags d / 16 % 4
def dRows (d : List Byte) : Nat := le d 2 2
def dLines (d : List Byte) : Nat := le d 4 2
def dLedgerId (d : List Byte) : Nat := le d 6 2
def dSrc (d : List Byte) : Word := BitVec.ofNat 64 (le d 8 8)
def dDst (d : List Byte) : Word := BitVec.ofNat 64 (le d 16 8)
def dSrcStride (d : List Byte) : Nat := le d 24 8
def dDstStride (d : List Byte) : Nat := le d 32 8
def dPattern (d : List Byte) : List Byte := slice d 40 8

def dUsesSrc (d : List Byte) : Bool := decide (dOp d ≠ 3)

/-- The descriptor checks in the order of Table 08-6; 0 when all hold (R200). -/
def descCode (e : Env) (d : List Byte) : Nat :=
  let op := dOp d
  let us := dUsesSrc d
  let s := dSrc d
  let t := dDst d
  if op < 1 ∨ 3 < op ∨ dFlags d / 4 % 4 ≠ 0 ∨ 64 ≤ dFlags d ∨ (dLedger d = true ∧ 4096 ≤ dLedgerId d) ∨ le d 48 16 ≠ 0 ∨
      (us = true ∧ 4 ≤ faSpace s) ∨ 4 ≤ faSpace t then 1
  else if (us = true ∧ isNear e s = false ∧ isNear e t = false) ∨ (us = true ∧ faSpace s = 2) ∨ faSpace t = 2 then 2
  else if (us = true ∧ s.toNat % 64 ≠ 0) ∨ t.toNat % 64 ≠ 0 ∨
      (op = 2 ∧ (dSrcStride d % 64 ≠ 0 ∨ dDstStride d % 64 ≠ 0 ∨ 2 ^ 40 ≤ dSrcStride d ∨ 2 ^ 40 ≤ dDstStride d)) then 3
  else if dRows d = 0 ∨ dLines d = 0 ∨ (op ≠ 2 ∧ dLines d ≠ 1) ∨ 4096 < dRows d * dLines d then 4
  else if (dSparse d = true ∧ op ≠ 1) ∨ (dLedger d = true ∧ faDev t = e.device) ∨ (us = false ∧ s ≠ 0) ∨
      (op ≠ 2 ∧ (dSrcStride d ≠ 0 ∨ dDstStride d ≠ 0)) ∨ (op ≠ 3 ∧ le d 40 8 ≠ 0) ∨
      (dLedger d = false ∧ dLedgerId d ≠ 0) then 5
  else 0

/-- The completion word (Table 08-7). -/
def flyWord (kind code rows : Nat) : Word :=
  if kind = 0 then 0 else BitVec.ofNat 64 (rows % 8192 * 2 ^ 16 + kind % 8 * 2 ^ 8 + code % 256)

/-- The lowest free tag, below 16 (R202). -/
def freeTag (f : Fly) : Option Nat :=
  (List.range 16).find? (fun t => f.transfers.all (fun x => decide (x.tag ≠ t)))

/-- The completion of a transfer (R202): its word, its tag, the event, the count. -/
def flyComplete (c : Cell) (tag : Nat) (w : Word) : Cell :=
  { c with
    fly := { c.fly with
      transfers := c.fly.transfers.filter (fun t => decide (t.tag ≠ tag))
      words := mset 0 c.fly.words tag w }
    sc := setEvent c.sc 14
    notes := c.notes ++ [.count 4 1 0 1] }

/-- A transfer as FLY puts it in; `order`: its place among the engine's transfers. Phase 1 reads metadata first
(SPARSE), phase 0 moves rows. -/
def newTransfer (f : Fly) (tag : Nat) (d : List Byte) : Transfer :=
  ⟨tag, d, 0, 0, 0, false, 0, 0, false, if dSparse d then 1 else 0, 0, [], f.nextId⟩

/-- FLY (R147, R196): the descriptor is read when it issues, and is checked at once. -/
def flyStep (e : Env) (x : XForm) (c : Cell) : Cell :=
  scalarStep 0x38 5 [x.ra.toNat, x.rd.toNat] (decide (x.rb ≠ 0 ∨ x.u ≠ 0 ∨ x.fn ≠ 0))
    (fun c =>
      match localAddr (xget c.sc x.ra.toNat) 64 with
      | none => .fault c 2
      | some (u, o) =>
        match freeTag c.fly with
        | none => .wait c
        | some tag =>
          let r := (c.flushRow u (o / 64)).readRows 7 u (o / 64) 1
          if r.2 then .fault r.1 3
          else
            let c := r.1
            let d := c.bytes u o 64
            let c := { c with sc := xset c.sc x.rd.toNat (BitVec.ofNat 64 tag) }
            let code := descCode e d
            if code ≠ 0 then .done (flyComplete c tag (flyWord 1 code 0))
            else
              .done { c with fly := { c.fly with
                transfers := c.fly.transfers ++ [newTransfer c.fly tag d]
                nextId := c.fly.nextId + 1 } }) c

/-- FLYWAIT (R147). -/
def flywaitStep (x : XForm) (c : Cell) : Cell :=
  scalarStep 0x39 0 [x.ra.toNat, x.rd.toNat] (decide (x.rb ≠ 0 ∨ x.u ≠ 0 ∨ x.fn ≠ 0))
    (fun c =>
      let tag := bits (xget c.sc x.ra.toNat) 3 0
      if c.fly.transfers.any (fun t => decide (t.tag = tag)) then .wait c
      else .done { c with sc := xset c.sc x.rd.toNat (mget 0 c.fly.words tag) }) c

/-! Requests (R201). -/

/-- Rows of a line of a transfer: ROWS, or the whole matrix of a SPARSE one. -/
def lineRows (t : Transfer) : Nat := if dSparse t.desc then ceilDiv t.total 64 else dRows t.desc

/-- Source and destination of row `row` of line `line`. -/
def srcAt (t : Transfer) : Word := dSrc t.desc + BitVec.ofNat 64 (t.line * dSrcStride t.desc + t.row * 64)
def dstAt (t : Transfer) : Word := dDst t.desc + BitVec.ofNat 64 (t.line * dDstStride t.desc + t.row * 64)

/-- Whether a transfer has rows, or metadata, left to request. -/
def hasMore (t : Transfer) : Bool :=
  !t.ended && (decide (t.phase ≠ 0) || decide (t.line < dLines t.desc ∧ t.row < lineRows t))

/-- Whether ORDER lets a transfer issue a request (R235). -/
def orderOk (f : Fly) (t : Transfer) : Bool :=
  let earlier := f.transfers.filter (fun x => decide (x.order < t.order))
  (decide (dOrder t.desc / 2 % 2 = 0) || earlier.isEmpty) &&
    earlier.all (fun x => decide (dOrder x.desc % 2 = 0))

/-- The next request of a transfer: whether it reads the far end, the far address, the near address (0 where `hasNear`
is false: a FILL of the far end, a metadata read), and how many rows; and whether both ends are near. -/
structure Chunk where
  isRead : Bool
  far : Word
  near : Word
  hasNear : Bool
  rows : Nat
  isLocal : Bool
deriving DecidableEq, Repr

/-- Rows from an address to the next 512-byte boundary, at most `n`. -/
def toBoundary (a : Word) (n : Nat) : Nat := Nat.min n (8 - a.toNat / 64 % 8)

/-- The metadata bytes still to read of a SPARSE transfer: the header, then the sections before the blocks. -/
def metaLeft (t : Transfer) : Nat :=
  if t.meta_.length < 64 then 64 - t.meta_.length
  else (parseHeader t.meta_).blocks - t.meta_.length

def nextChunk (e : Env) (t : Transfer) : Chunk :=
  if t.phase ≠ 0 then
    let a := dSrc t.desc + BitVec.ofNat 64 t.meta_.length
    ⟨true, a, 0, false, toBoundary a (ceilDiv (metaLeft t) 64), isNear e (dSrc t.desc)⟩
  else
    let left := lineRows t - t.row
    let s := srcAt t
    let d := dstAt t
    if dOp t.desc = 3 then
      (if isNear e (dDst t.desc) then ⟨false, d, d, true, toBoundary d left, true⟩
      else ⟨false, d, 0, false, toBoundary d left, false⟩)
    else if isNear e (dSrc t.desc) && isNear e (dDst t.desc) then ⟨false, s, d, true, toBoundary d left, true⟩
    else if isNear e (dDst t.desc) then ⟨true, s, d, true, toBoundary s left, false⟩
    else ⟨false, d, s, true, toBoundary d left, false⟩

/-- A transfer moved past `n` rows. -/
def advanceRows (t : Transfer) (n : Nat) : Transfer :=
  if t.phase ≠ 0 then t
  else if lineRows t ≤ t.row + n then { t with line := t.line + 1, row := 0 } else { t with row := t.row + n }

/-- A transfer replaced in the engine by tag. -/
def putTransfer (f : Fly) (t : Transfer) : Fly :=
  { f with transfers := f.transfers.map (fun x => if x.tag = t.tag then t else x) }

/-- Whether two byte ranges overlap in a 64-byte burst. -/
def overlaps (a : Word) (n : Nat) (b : Word) (k : Nat) : Bool :=
  decide (a.toNat < b.toNat + 64 * k ∧ b.toNat < a.toNat + 64 * n)

/-- Rows of a request's far range. -/
def opRows (op : FabOp) : Nat :=
  match op with
  | .read n => ceilDiv n 64
  | .write bs _ => ceilDiv bs.length 64
  | _ => 1

/-- Whether a range of rows overlaps an outstanding request, at its far end or at its near one. -/
def meetsReq (a : Word) (n : Nat) (q : FlyReq) : Bool :=
  overlaps a n q.addr (opRows q.op) || (q.hasNear && overlaps a n q.dst (opRows q.op))

/-- Whether a request is of a transfer put in before this one. -/
def ofEarlier (f : Fly) (t : Transfer) (q : FlyReq) : Bool :=
  f.transfers.any (fun x => decide (x.tag = q.tag ∧ x.order < t.order))

/-- Whether no outstanding request of an earlier transfer overlaps this chunk (R201). -/
def chunkClear (f : Fly) (t : Transfer) (ch : Chunk) : Bool :=
  f.reqs.all (fun q =>
    !ofEarlier f t q || (!meetsReq ch.far ch.rows q && !(ch.hasNear && meetsReq ch.near ch.rows q)))

/-- Whether the engine may have one more request of a kind outstanding (R201). -/
def flyRoom (f : Fly) (isRead : Bool) : Bool :=
  decide ((f.reqs.filter (fun q => q.isRead == isRead)).length < 32)

/-- Whether a transfer may issue its next request now. A metadata read waits for the one before. -/
def mayIssue (e : Env) (f : Fly) (t : Transfer) : Bool :=
  let ch := nextChunk e t
  hasMore t && orderOk f t && (ch.isLocal || flyRoom f ch.isRead) && chunkClear f t ch &&
    (decide (t.phase = 0) || f.reqs.all (fun q => decide (q.tag ≠ t.tag)))

/-- The active transfer whose turn it is, round-robin by tag (R201). -/
def pickTransfer (e : Env) (f : Fly) : Option Transfer :=
  let ok := fun (k : Nat) => f.transfers.find? (fun t => decide (t.tag = (f.rr + 1 + k) % 16) && mayIssue e f t)
  ((List.range 16).filterMap ok).head?

/-- A failure recorded, if it is the transfer's first (R203). -/
def failTransfer (t : Transfer) (kind code : Nat) : Transfer :=
  if t.ended then t else { t with ended := true, kind := kind, code := code }

/-- Every metadata check of Table 05-3 that the fly engine makes (R120), over the bytes before the blocks; 0 when all
hold. -/
def rowsCheck (h : Header) (m : List Byte) : Nat → Nat → Nat → Nat
  | 0, _, _ => 0
  | n + 1, r, first =>
    let e := slice m (h.rows + r * h.rs) h.rs
    let c := rowCode h e
    if c ≠ 0 then c
    else if le e 0 4 ≠ first then 0x16
    else rowsCheck h m n (r + 1) (first + le e 4 2)

/-- The packed index of block (r, c), or none where it is absent (R109). -/
def packedIndex (h : Header) (m : List Byte) (r c : Nat) : Option Nat :=
  let e := slice m (h.rows + r * h.rs) h.rs
  let bm := rowBitmap h e
  if bm / 2 ^ c % 2 = 1 then some (le e 0 4 + popcount c bm) else none

/-- The list entries of a column against the bitmaps (0x1B): each entry's index is its block's, and every present
block of the column has its entry. -/
def directoryCode (h : Header) (m : List Byte) (c first count : Nat) : Nat :=
  let es := (List.range count).map (fun s => (le m (h.list + (first + s) * 8) 4, le m (h.list + (first + s) * 8 + 4) 4 % 4096))
  if es.any (fun p => decide (packedIndex h m p.2 c ≠ some p.1)) then 0x1B
  else if ((List.range h.lbn).filter (fun r => decide (packedIndex h m r c ≠ none))).length ≠ count then 0x1B
  else 0

def colsCheck (h : Header) (m : List Byte) : Nat → Nat → Nat → Nat
  | 0, _, first => if first ≠ h.nnz then 0x1A else 0
  | n + 1, c, first =>
    let w := slice m (h.cols + c * 8) 8
    let k := le w 4 2
    if h.capC < k then 0x18
    else if h.nnz < le w 0 4 + k ∨ le w 0 4 ≠ first then 0x1A
    else
      let lc := listCode h (m.drop (h.list + first * 8)) 0 k
      if lc ≠ 0 then lc
      else
        let dc := directoryCode h m c first k
        if dc ≠ 0 then dc else colsCheck h m n (c + 1) (first + k)

/-- The checks of a SPARSE transfer's metadata (R120, R198), with the room from its header. Of several that fail, the
first ends it: the header's, then every row entry's, then for each column its word's, its list entries' and the
directory's (DESIGN CHOICE, log entry 35). -/
def sparseCode (rows room : Nat) (m : List Byte) : Nat :=
  let h := parseHeader m
  let hc := headerCode h room
  if hc ≠ 0 then hc
  else if rows * 64 < h.total then 0x12
  else if h.dense then 0
  else
    let rc := rowsCheck h m h.lbn 0 0
    if rc ≠ 0 then rc else colsCheck h m h.kbn 0 0

/-- The header checks alone, made as soon as the header is read; those of Table 05-3 come before the one against ROWS
(DESIGN CHOICE, log entry 35). -/
def headCode (rows room : Nat) (m : List Byte) : Nat :=
  let h := parseHeader m
  let hc := headerCode h room
  if hc ≠ 0 then hc else if rows * 64 < h.total then 0x12 else 0

/-- Metadata bytes taken in (R120): after the last of them the checks are made; a failed one ends the transfer. -/
def takeMeta (room : Nat) (t : Transfer) (bs : List Byte) : Transfer :=
  let t := { t with meta_ := t.meta_ ++ bs }
  if t.meta_.length < 64 then t
  else
    let hc := headCode (dRows t.desc) room t.meta_
    if hc ≠ 0 then failTransfer t 4 hc
    else if 0 < metaLeft t then t
    else
      let code := sparseCode (dRows t.desc) room t.meta_
      if code ≠ 0 then failTransfer t 4 code
      else { t with phase := 0, total := (parseHeader t.meta_).total, meta_ := [] }

/-! Rows of the near end. -/

/-- Words of rows that came back bad: every word of such a row (R59). -/
def badOf (c : Cell) (u row n : Nat) : List Nat :=
  ((List.range n).filter (fun k => c.rowsBad u (row + k) 1)).flatMap (fun k => (List.range 8).map (fun j => 8 * k + j))

/-- `n` rows of the cell read by the fly engine over the crossbar. -/
def flyRead (c : Cell) (u row n : Nat) : Cell × List Byte × List Nat :=
  let r := c.readRows 9 u row n
  let bad := badOf r.1 u row n
  (r.1, r.1.bytes u (row * 64) (64 * n), if r.2 && bad.isEmpty then List.range (8 * n) else bad)

/-- Whole words written over the crossbar with their poisoned ones marked (R191); one transfer, and where it fails twice
all of them are uncorrectable (log entry 43). -/
def crossWrite (c : Cell) (u off : Nat) (bs : List Byte) (bad : List Nat) : Cell :=
  let p := c.crossing false
  (p.1.write u off bs).mark u off (if p.2 then bad else List.range (bs.length / 8))

/-- Rows written into the cell by the fly engine. -/
def flyWrite (c : Cell) (u off : Nat) (bs : List Byte) (bad : List Nat) : Cell :=
  (crossWrite c u off bs bad).note (.count 4 2 0 (bs.length / 64))

/-- Whether `n` bytes at an address of the cell's own memory lie in a unit. -/
def nearOk (a : Word) (n : Nat) : Bool :=
  decide (bit a 47 = false ∧ bits a 26 18 = 0 ∧ faUnit a ≤ 8 ∧ faByte a + n ≤ unitBytes (faUnit a))

/-- The bytes of a FILL (R197). -/
def fillBytes (d : List Byte) (rows : Nat) : List Byte := (List.replicate (8 * rows) (dPattern d)).flatten

/-- A chunk whose ends are both near, or a FILL of the own cell: moved at once. A bad address ends the transfer. -/
def localChunk (t : Transfer) (ch : Chunk) (c : Cell) : Cell :=
  let rows := ch.rows
  if t.phase ≠ 0 then
    if !nearOk ch.far (64 * rows) then { c with fly := putTransfer c.fly (failTransfer t 2 1) }
    else
      let r := flyRead c (faUnit ch.far) (faByte ch.far / 64) rows
      let t := if r.2.2.isEmpty then t else { t with poisoned := true }
      { r.1 with fly := putTransfer r.1.fly (takeMeta (unitBytes (faUnit ch.far) - faByte (dSrc t.desc)) t r.2.1) }
  else if dOp t.desc = 3 then
    if !nearOk ch.near (64 * rows) then { c with fly := putTransfer c.fly (failTransfer t 2 1) }
    else
      let c := flyWrite c (faUnit ch.near) (faByte ch.near) (fillBytes t.desc rows) []
      { c with fly := putTransfer c.fly { advanceRows t rows with rowsDone := t.rowsDone + rows } }
  else if !nearOk ch.far (64 * rows) || !nearOk ch.near (64 * rows) then
    { c with fly := putTransfer c.fly (failTransfer t 2 1) }
  else
    let r := flyRead c (faUnit ch.far) (faByte ch.far / 64) rows
    let c := flyWrite r.1 (faUnit ch.near) (faByte ch.near) r.2.1 r.2.2
    let t := advanceRows t rows
    { c with fly := putTransfer c.fly { t with
        rowsDone := t.rowsDone + rows, poisoned := t.poisoned || !r.2.2.isEmpty } }

/-- A chunk with a far end: the request put among the outstanding ones, the rows of a fly-out read for it. -/
def farChunk (t : Transfer) (ch : Chunk) (c : Cell) : Cell × FlyReq :=
  let out := !ch.isRead && decide (dOp t.desc ≠ 3)
  let r := if out then flyRead c (faUnit ch.near) (faByte ch.near / 64) ch.rows
    else (c, fillBytes t.desc ch.rows, [])
  let op := if ch.isRead then FabOp.read (64 * ch.rows) else FabOp.write r.2.1 r.2.2
  let led := if dLedger t.desc then some (dLedgerId t.desc) else none
  let q : FlyReq := ⟨c.fly.nextId, t.tag, ch.isRead, ch.far, op, ch.near, ch.hasNear, false, faDev ch.far, led⟩
  let t := { advanceRows t ch.rows with poisoned := t.poisoned || !r.2.2.isEmpty }
  let f := putTransfer r.1.fly t
  ({ r.1 with fly := { f with reqs := f.reqs ++ [q], nextId := f.nextId + 1, rr := t.tag } }, q)

/-- A reply's effect on its transfer (R203): rows land, or the transfer fails; unreachable keeps the request. `room`:
bytes from a SPARSE header to the end of what holds it. -/
def flyReplyIn (room : Nat) (q : FlyReq) (r : Reply) (c : Cell) : Cell :=
  let host := decide (faSpace q.addr = 3)
  if r.status = 2 then
    { c with fly := { c.fly with reqs := c.fly.reqs.map (fun x => if x.id = q.id then { x with kept := true } else x) } }
  else
    let c := { c with fly := { c.fly with reqs := c.fly.reqs.filter (fun x => decide (x.id ≠ q.id)) } }
    match c.fly.transfers.find? (fun t => decide (t.tag = q.tag)) with
    | none => c
    | some t =>
      let rows := opRows q.op
      if r.status = 0 ∨ (r.status = 5 ∧ host = true ∧ q.isRead = true) then
        let bad := if r.status = 5 then List.range (8 * rows) else r.bad
        let t := { t with poisoned := t.poisoned || !bad.isEmpty }
        if q.isRead then
          if t.phase ≠ 0 then { c with fly := putTransfer c.fly (takeMeta room t (slice r.bytes 0 (64 * rows))) }
          else
            let c := flyWrite c (faUnit q.dst) (faByte q.dst) (slice r.bytes 0 (64 * rows)) bad
            { c with fly := putTransfer c.fly { t with rowsDone := t.rowsDone + rows } }
        else
          let c := c.note (.count 4 2 0 rows)
          { c with fly := putTransfer c.fly { t with rowsDone := t.rowsDone + rows } }
      else { c with fly := putTransfer c.fly (failTransfer t 2 r.status) }

/-- A transfer's end (R202): it has ended or issued all, and every request has its reply. -/
def transferDone (f : Fly) (t : Transfer) : Bool :=
  !hasMore t && f.reqs.all (fun q => decide (q.tag ≠ t.tag))

/-- FLY_TRANSFER_COMPLETE (R202, R203). -/
def flyEnd (tag : Nat) (c : Cell) : Cell :=
  match c.fly.transfers.find? (fun t => decide (t.tag = tag)) with
  | none => c
  | some t =>
    if !transferDone c.fly t then c
    else if t.ended then flyComplete c tag (flyWord t.kind t.code t.rowsDone)
    else if t.poisoned then flyComplete c tag (flyWord 3 3 t.rowsDone)
    else flyComplete c tag 0

/-! Requests to the cell's memory (R212, R188). -/

/-- The atomic operations of R144: the new value, or none where nothing is written. -/
def atomicNew (op : Nat) (old v cmp : Word) : Option Word :=
  match op with
  | 0 => some v
  | 1 => some (old + v)
  | 2 => some (old &&& v)
  | 3 => some (old ||| v)
  | 4 => some (if old.slt v then v else old)
  | _ => if old = cmp then some v else none

/-- A request served by the target's fly engine: the cell after it, the status, data bytes and poisoned words. -/
def serveCell (r : Req) (c : Cell) : Cell × Nat × List Byte × List Nat :=
  let u := faUnit r.addr
  let o := faByte r.addr
  let c := c.note (.count 4 3 0 1)
  match r.op with
  | .load =>
    let p := c.readRows 9 u (o / 64) 1
    if p.2 then (p.1, 5, [], []) else (p.1, 0, p.1.bytes u o 8, [])
  | .store v => (crossWrite c u o (toLe v.toNat 8) [], 0, [], [])
  | .atomic op v cmp =>
    let p := c.readRows 9 u (o / 64) 1
    if p.2 then (p.1, 5, [], [])
    else
      let old := BitVec.ofNat 64 (ofLe (p.1.bytes u o 8))
      match atomicNew op old v cmp with
      | some w => (crossWrite p.1 u o (toLe w.toNat 8) [], 0, toLe old.toNat 8, [])
      | none => (p.1, 0, toLe old.toNat 8, [])
  | .read n => let p := flyRead c u (o / 64) (n / 64); (p.1, 0, p.2.1, p.2.2)
  | .write bs bad => (crossWrite c u o bs bad, 0, [], [])

end Sys2Proof.Machine
end

