-- ==== Sys2Proof/Machine/Mesh.lean ====
section
/-! DEFINITION. The packet mesh up to sending (R206 to R217): coordinates, routes, edge attachments, the address checks
of R25 and R460 at the requesting engine's node, replies. -/

namespace Sys2Proof.Machine

/-! Coordinates (R209, R16, R214). -/

/-- The router of a logical cell. -/
def cellRouter (f l : Nat) : Nat × Nat := (f % 9 * 24 + l % 24, f / 9 * 16 + l / 24)

def routerField (mx my : Nat) : Nat := my / 16 * 9 + mx / 24

/-- The field coordinate along its side of each optical port's index (Table 01-4). -/
def sideCoord (side i : Nat) : Nat :=
  if side < 2 then ([0, 1, 1, 2, 3, 4, 4, 5, 6, 7, 7, 8][i]?).getD 0 else ([0, 1, 1, 2, 3, 3, 4, 4, 5, 6, 6, 7][i]?).getD 0

/-- Sides in the numbering of R242: 0 north, 1 east, 2 south, 3 west; north and south run along x. -/
def alongX (side : Nat) : Bool := decide (side % 2 = 0)

def portCoord (p : Nat) : Nat := sideCoord (if alongX (p / 12) then 0 else 2) (p % 12)

/-- The field coordinate of a host port along its side (Table 01-5); host port k lies on side k. -/
def hostCoord (h : Nat) : Nat := ([4, 3, 4, 4][h]?).getD 0

/-- The router at position `i` along a field side. -/
def edgeRouter (side coord i : Nat) : Nat × Nat :=
  match side with
  | 0 => (coord * 24 + i, 0)
  | 1 => (215, coord * 16 + i)
  | 2 => (coord * 24 + i, 127)
  | _ => (0, coord * 16 + i)

/-- Routers each optical port has on a field side (Table 09-2). -/
def perPort (side : Nat) (host : Bool) : Nat :=
  if alongX side then (if host then 10 else 12) else (if host then 6 else 8)

/-- The attachment routers of an optical port, as built. -/
def optRouters (p : Nat) : List (Nat × Nat) :=
  let side := p / 12
  let coord := portCoord p
  let n := perPort side (decide (hostCoord side = coord))
  let rank := ((List.range (p % 12)).filter (fun i => decide (portCoord (side * 12 + i) = coord))).length
  (List.range n).map (fun i => edgeRouter side coord (rank * n + i))

/-- The attachment routers of a host port: the last 4 of its field side. -/
def hostRouters (h : Nat) : List (Nat × Nat) :=
  let len := if alongX h then 24 else 16
  (List.range 4).map (fun i => edgeRouter h (hostCoord h) (len - 4 + i))

/-- Whether a mesh position's row is in service. -/
def Mod.rowLive (m : Mod) (mx my : Nat) : Bool := !m.rowOut (routerField mx my) (my % 16)

/-- The live attachment routers of an edge block, renumbered in order (R364). -/
def Mod.liveRouters (m : Mod) (rs : List (Nat × Nat)) : List (Nat × Nat) := rs.filter (fun r => m.rowLive r.1 r.2)

/-- Attachment router `k mod n` of an edge block (R215). -/
def Mod.attach (m : Mod) (rs : List (Nat × Nat)) (k : Nat) : Option (Nat × Nat) :=
  let l := m.liveRouters rs
  l[k % l.length]?

/-! Routes (R209, R210). -/

/-- The direction a packet for router (tx, ty) leaves (mx, my) in. -/
def hopDir (mx my tx ty : Nat) : Nat :=
  if mx < tx then 1 else if tx < mx then 3 else if my < ty then 2 else if ty < my then 0 else 4

/-- The next row in service from a row, going south or north; at most 128 are passed. -/
def Mod.nextRow (m : Mod) (mx my : Nat) (south : Bool) : Nat → Nat
  | 0 => my
  | n + 1 =>
    let y := if south then my + 1 else my - 1
    if m.rowLive mx y then y else m.nextRow mx y south n

/-- The router a direction leads to. -/
def Mod.nextRouter (m : Mod) (mx my dir : Nat) : Nat × Nat :=
  match dir with
  | 0 => (mx, m.nextRow mx my false 128)
  | 1 => (mx + 1, my)
  | 2 => (mx, m.nextRow mx my true 128)
  | _ => (mx - 1, my)

/-- The key of a router output. -/
def outKey (reply : Bool) (mx my dir : Nat) : Nat := (((ofBool reply * 216 + mx) * 128 + my) * 5 + dir)

/-- A packet put behind the others at the output it leaves a router by. -/
def Mod.atRouter (m : Mod) (mx my : Nat) (p : Packet) : Mod :=
  let k := outKey p.reply mx my (hopDir mx my p.mx p.my)
  { m with routers := mset [] m.routers k (mget [] m.routers k ++ [p]) }

/-! Requests. -/

/-- A request's bytes at its target. -/
def opBytes (op : FabOp) : Nat :=
  match op with
  | .read n => n
  | .write bs _ => bs.length
  | _ => 8

def isWrite (op : FabOp) : Bool :=
  match op with
  | .load => false
  | .read _ => false
  | _ => true

def isAtomic (op : FabOp) : Bool :=
  match op with
  | .atomic _ _ _ => true
  | _ => false

/-- A request's channel and length (Table 09-1). -/
def reqShape (op : FabOp) : Bool × Nat :=
  match op with
  | .load => (true, 1)
  | .store _ => (true, 1)
  | .atomic 5 _ _ => (true, 2)
  | .atomic _ _ _ => (true, 1)
  | .read _ => (false, 1)
  | .write bs _ => (false, 1 + ceilDiv bs.length 32)

def repShape (r : Reply) : Bool × Nat :=
  match r.owner with
  | .scalar _ _ _ => (true, 1)
  | .fly _ _ _ => (false, 1 + ceilDiv r.bytes.length 32)
  | .remote _ _ bulk _ => (!bulk, if bulk ∨ 8 < r.bytes.length then 1 + ceilDiv r.bytes.length 32 else 1)

def ownerCell (o : Owner) : Option (Nat × Nat) :=
  match o with
  | .scalar f l _ => some (f, l)
  | .fly f l _ => some (f, l)
  | .remote _ _ _ _ => none

/-- The generations of an engine of a cell now (R399). -/
def Mod.gens (m : Mod) (f l : Nat) (fly : Bool) : Gens :=
  ⟨m.get rtDgen, (match m.coOf f with | some c => m.get (gsCgen c) | none => 0),
    if fly then (m.cell f l).fly.egen else (m.cell f l).sc.egen⟩

/-- A reply put where its engine finds it: it never leaves the cell's own node (R460). -/
def Mod.replyHere (m : Mod) (f l : Nat) (r : Reply) : Mod := m.modCell f l (fun c => { c with replies := c.replies ++ [r] })

def statusReply (r : Req) (st : Nat) : Reply := ⟨r.owner, st, [], [], r.gens⟩

/-! The company's stratum (R181, R185, R374). -/

/-- The interleave hash of R181 over `n` bits of `u`. -/
def hashU (key : Word) (u : Nat) : Nat → Nat
  | 0 => 0
  | i + 1 => (if u / 2 ^ i % 2 = 1 then bits key (4 * (i % 16) + 3) (4 * (i % 16)) else 0) ^^^ hashU key u i

/-- The channel of a byte of a field slot (R181). -/
def Mod.chanOf (m : Mod) (r : Nat) : Nat :=
  let g := r / 2048
  (g % 16) ^^^ hashU (m.reg 0x200000) (g / 16) (18 + m.layers)

/-- The layer and the byte within channel and layer of a byte of a field slot (R181). -/
def Mod.chanByte (m : Mod) (r : Nat) : Nat × Nat :=
  let u := r / 2048 / 16
  (if m.layers = 2 then u / 2 ^ 19 else 0, u % 2 ^ 19 * 2048 + r % 2048)

/-- The byte of a field slot that a channel, layer and byte within name: the inverse of R181. -/
def Mod.slotByte (m : Mod) (ch layer b : Nat) : Nat :=
  let u := layer * 2 ^ 19 + b / 2048
  (u * 16 + (ch ^^^ hashU (m.reg 0x200000) u (18 + m.layers))) * 2048 + b % 2048

/-- The field and the byte of its slot that a company offset names. -/
def Mod.stratPlace (m : Mod) (c off : Nat) : Nat × Nat :=
  (((m.coFields c)[off / m.slotSize]?).getD 72, off % m.slotSize)

/-- Bytes of a scene store (R185). -/
def sceneStore (n : Nat) : Nat := ceilDiv (n * 384 * 2080) 0x200000 * 0x200000

def Mod.storeBytes (m : Mod) (c : Nat) : Nat :=
  match (m.co c).prod with
  | some p => sceneStore p.scenes.length
  | none =>
    match (m.co c).loading with
    | some g => sceneStore (le g.image 0x18 2)
    | none => 0

def Mod.stagingBytes (m : Mod) (c : Nat) : Nat := m.get (encStage c) * 0x200000

/-- Whether `n` bytes at an offset of a company touch a scene store, or the staging area of the encore field. -/
def Mod.stratHidden (m : Mod) (c off n : Nat) : Bool :=
  let at_ := fun a =>
    let p := m.stratPlace c a
    let top := m.slotSize - m.storeBytes c
    decide (top ≤ p.2) ||
      (decide (m.get (encMode c) = 1 ∧ p.1 = m.get (encField c)) && (m.co c).prod.isSome && decide (top - m.stagingBytes c ≤ p.2))
  at_ off || at_ (off + n - 1)

/-- The declared output range of the current step, (OFFSET, BYTES). -/
def Mod.outRange (m : Mod) (c : Nat) : Option (Nat × Nat) := (m.co c).job.bind (·.range)

/-- An access of the encore field's engines to the output range during a replay goes to the staging area (R374): the
company offset it becomes. -/
def Mod.redirect (m : Mod) (c f off : Nat) : Option Nat :=
  if m.isSet (esReplaying c) && decide (m.get (encMode c) = 1 ∧ m.get (encField c) = f) then
    match m.outRange c with
    | some (o, n) =>
      let k := off / m.slotSize
      let r := off % m.slotSize
      if o ≤ r ∧ r < o + n then
        some (m.slotOf c f * m.slotSize + (m.slotSize - m.storeBytes c - m.stagingBytes c) + k * n + (r - o))
      else none
    | none => none
  else none

/-! The host window (R303). -/
def hwSeg (off : Nat) : Nat := off / 2 ^ 40

def Mod.hostMapped (m : Mod) (c off n : Nat) : Bool :=
  decide (hwSeg off < 64) && m.isSet (hwinEn c (hwSeg off)) &&
    decide (off % 2 ^ 40 + n ≤ m.get (hwinPages c (hwSeg off)) * 4096) && m.vfOn (m.port c) (m.func c)

def Mod.hostAddr (m : Mod) (c off : Nat) : Word := pageAddr (m.reg (hwinOff c (hwSeg off))) + BitVec.ofNat 64 (off % 2 ^ 40)

/-! Route tables (R255 to R257). -/
def Mod.routeEntry (m : Mod) (epoch : Bool) (d : Nat) : Word := m.reg (routeOff epoch d)

/-- A port that is up (R244). -/
def Mod.portUp (m : Mod) (p : Nat) : Bool := m.portFitted p && decide (m.get (portState p) = 3)

/-- The live candidates of a route entry, in slot order (R257). -/
def Mod.liveCands (m : Mod) (w : Word) : List Nat :=
  if bit w 63 then
    ((List.range (bits w 25 24 + 1)).map (fun i => bits w (6 * i + 5) (6 * i))).filter m.portUp
  else []

/-- The port a packet leaves by (R257), from a router and a traffic class. -/
def Mod.pickPort (m : Mod) (epoch : Bool) (d mx my tc : Nat) : Option Nat :=
  let w := m.routeEntry epoch d
  let l := m.liveCands w
  let hashed := fun (x : List Nat) => x[(mx + 3 * my + tc) % x.length]?
  match bits w 62 61 with
  | 0 => l.head?
  | 1 => hashed l
  | _ =>
    let low := (l.map (fun p => m.get (portLoad p))).foldl Nat.min 7
    hashed (l.filter (fun p => decide (m.get (portLoad p) = low)))

def Mod.epoch (m : Mod) : Bool := m.isSet injEpoch

/-! The checks (R25, R460). -/

/-- Check 1: a reserved space code or reserved offset bits. -/
def badSpace (a : Word) : Bool := decide (4 ≤ faSpace a ∨ (faSpace a = 1 ∧ (bits a 47 47 ≠ 0 ∨ bits a 26 18 ≠ 0)))

/-- Check 2: another device is reachable once DEV_NUM has been written, injection is open and a candidate of its route is live (R26,
R255). -/
def Mod.reachable (m : Mod) (d : Nat) : Bool :=
  decide (d = m.get devNum) || (m.numSet && m.isSet injEn && !(m.liveCands (m.routeEntry m.epoch d)).isEmpty)

/-- Whether a BAR0 offset lies in the ledgers of another company (R264). -/
def otherLedger (c off : Nat) : Bool := decide (0x180000 ≤ off ∧ off < 0x200000 ∧ (off - 0x180000) / 0x8000 ≠ c)

/-- Check 3 for a target on this device. Another company's ledgers fail it (Table 13-2); other registers that the requester may not reach
read as zero (R462; log entry 54). -/
def Mod.noAccess (m : Mod) (c : Nat) (a : Word) (n : Nat) : Bool :=
  match faSpace a with
  | 2 => otherLedger c (faOff a)
  | 0 => decide (faOff a < m.capacity c) && m.stratHidden c (faOff a) n
  | 1 => decide (m.coOf (faField a) ≠ some c)
  | _ => false

/-- Check 4 for a target on this device. -/
def Mod.outside (m : Mod) (c : Nat) (a : Word) (n : Nat) : Bool :=
  match faSpace a with
  | 0 => decide (m.capacity c < faOff a + n)
  | 1 => !(m.cellOk (faField a) (faCell a) && decide (faUnit a ≤ 8 ∧ faByte a + n ≤ unitBytes (faUnit a)))
  | 2 => decide (0x4000000 < faOff a + n)
  | _ => !m.hostMapped c (faOff a) n

/-- Checks 1 to 4 at the requesting node, and FATOM where it is not supported (R303, R462); 0 where all hold. -/
def Mod.checkReq (m : Mod) (c : Nat) (r : Req) : Nat :=
  let a := r.addr
  let own := decide (faDev a = m.get devNum)
  let n := opBytes r.op
  if badSpace a then 1
  else if !m.reachable (faDev a) then 2
  else if !own then (if 2 ≤ faSpace a then 3 else 0)
  else if m.noAccess c a n then 3
  else if m.outside c a n then 1
  else if isAtomic r.op && decide (2 ≤ faSpace a) then 6
  else 0

/-- The packet of a request for a router. -/
def reqPacket (r : Req) (dst : Nat × Nat) (d : Dest) : Packet :=
  ⟨false, (reqShape r.op).1, (reqShape r.op).2, dst.1, dst.2, d, r.co, .req r⟩

/-- The step's reasons that an access gives (R372): another device or the host window, a write outside the range. -/
def Mod.whyOfReq (m : Mod) (c : Nat) (r : Req) : Mod :=
  let m := if faDev r.addr ≠ m.get devNum ∨ faSpace r.addr = 3 then m.addWhy c 3 else m
  if isWrite r.op && decide (faDev r.addr = m.get devNum ∧ faSpace r.addr = 0) then
    let o := faOff r.addr % m.slotSize
    match m.outRange c with
    | some (b, n) => if b ≤ o ∧ o + opBytes r.op ≤ b + n then m else m.addWhy c 5
    | none => m.addWhy c 5
  else m

/-- A checked request sent from the router of cell (f, l) (R213, R215, R257). Space 0x2 does not travel over the
mesh (R461): such an access stays at the core until its reply is due. -/
def Mod.sendReq (m : Mod) (f l : Nat) (r : Req) : Mod :=
  let src := cellRouter f l
  let a := r.addr
  if faDev a ≠ m.get devNum then
    match m.pickPort m.epoch (faDev a) src.1 src.2 (ofBool (!(reqShape r.op).1)) with
    | none => m.replyHere f l (statusReply r 2)
    | some p =>
      match m.attach (optRouters p) (src.1 + src.2 + faOff a / 512) with
      | some t => m.atRouter src.1 src.2 (reqPacket r t (.optical p))
      | none => m.replyHere f l (statusReply r 2)
  else
    match faSpace a with
    | 0 =>
      let off := (m.redirect r.co f (faOff a)).getD (faOff a)
      let F := (m.stratPlace r.co off).1
      m.atRouter src.1 src.2 (reqPacket { r with addr := (a &&& 0xFFFF000000000000#64) + BitVec.ofNat 64 off } (cellRouter F l) (.strat F))
    | 1 => m.atRouter src.1 src.2 (reqPacket r (cellRouter (faField a) (faCell a)) (.cell (faField a) (faCell a)))
    | 3 =>
      match m.attach (hostRouters (m.port r.co)) (src.1 + src.2 + faOff a / 512) with
      | some t => m.atRouter src.1 src.2 (reqPacket r t (.host (m.port r.co)))
      | none => m.replyHere f l (statusReply r 4)
    | _ => m

/-- A request issued at a cell's node: checked, then sent or answered with the failing check's status. -/
def Mod.issueReq (m : Mod) (f l : Nat) (r : Req) : Mod :=
  match m.coOf f with
  | none => m.replyHere f l (statusReply r 3)
  | some c =>
    let st := m.checkReq c r
    if st ≠ 0 then m.replyHere f l (statusReply r st) else (m.whyOfReq c r).sendReq f l r

/-- A reply sent from a router to its requester on this device, or to the edge its packet came in by. Such a reply has no fabric-address
offset: R215's j is taken with offset 0 (DESIGN CHOICE, log entry 18). -/
def Mod.sendReply (m : Mod) (mx my : Nat) (r : Reply) (co : Nat) (edge : Option Nat) : Mod :=
  let sh := repShape r
  match ownerCell r.owner, edge with
  | some (f, l), _ =>
    let t := cellRouter f l
    m.atRouter mx my ⟨true, sh.1, sh.2, t.1, t.2, .cell f l, co, .rep r⟩
  | none, some p =>
    match m.attach (optRouters p) (mx + my) with
    | some t => m.atRouter mx my ⟨true, sh.1, sh.2, t.1, t.2, .optical p, co, .rep r⟩
    | none => m
  | none, none => m

/-- The reply to a request that came over Shedin leaves by the route to its source (R257), from a router. -/
def Mod.replyEdge (m : Mod) (mx my : Nat) (r : Reply) : Option Nat :=
  match r.owner with
  | .remote dev _ bulk _ => m.pickPort m.epoch dev mx my (ofBool bulk)
  | _ => none

/-- A reply to a request that a router or a home answers. -/
def Mod.answer (m : Mod) (mx my : Nat) (r : Reply) (co : Nat) : Mod := m.sendReply mx my r co (m.replyEdge mx my r)

end Sys2Proof.Machine
end

