-- ==== Sys2Proof/Machine/Vector.lean ====
section
/-! DEFINITION. The vector core (R126 to R138): issue and faults, masks, elementwise arithmetic, reductions,
conversions, moves and masks, memory access, control and tokens. -/

namespace Sys2Proof.Machine

/-! State. -/

/-- The 64 lanes of a register (R128). -/
def vget (v : Vec) (r : Nat) : List Word32 := (List.range 64).map (fun l => mget 0 v.v (r * 64 + l))

def vset (v : Vec) (r : Nat) (ls : List Word32) : Vec := { v with v := mfill 0 v.v (r * 64) 64 ls }

def kget (v : Vec) (k : Nat) : Word := mget 0 v.k k

def kset (v : Vec) (k : Nat) (w : Word) : Vec := { v with k := mset 0 v.k k w }

def aget (v : Vec) (a : Nat) : Half := mget 0 v.a a

def aset (v : Vec) (a : Nat) (w : Half) : Vec := { v with a := mset 0 v.a a w }

/-- Lane `l` of a list of lanes. -/
def ln (l : List Word32) (i : Nat) : Word32 := (l[i]?).getD 0

/-- The 256-byte image of lanes (R128). -/
def laneBytes (ls : List Word32) : List Byte := ls.flatMap (fun w => toLe w.toNat 4)

/-- The 64 lanes of a 256-byte image. -/
def bytesLanes (bs : List Byte) : List Word32 := (List.range 64).map (fun l => BitVec.ofNat 32 (le bs (4 * l) 4))

/-! Issue (R129, R136, R138). -/

/-- How a vector instruction ends: complete, jumped, waiting, faulted. -/
inductive VRes where
  | done (c : Cell)
  | jump (c : Cell) (pc : Nat)
  | wait (c : Cell)
  | fault (c : Cell) (code : Nat)
deriving DecidableEq, Repr

/-- The core halts and records a fault; the vector-fault event is raised (R138). -/
def vecFault (c : Cell) (code : Nat) : Cell :=
  { c with vec := { c.vec with fault := code, running := false, waiting := 0, held := false }, sc := setEvent c.sc 13 }

def vecRetire (c : Cell) (pc : Nat) : Cell :=
  { c with vec := { c.vec with pc := pc, waiting := 0, held := false }, notes := c.notes ++ [.count 2 1 0 1] }

def vecEnd (op pc : Nat) : VRes → Cell
  | .done c => vecRetire c (pc + 1)
  | .jump c pc' => vecRetire c pc'
  | .wait c => { c with vec := { c.vec with waiting := op } }
  | .fault c code => vecFault c code

/-- One instruction of the vector core: nothing while it is halted or waits in another one; a fault beyond index
24,575 (R136) or of a bad encoding (R129); else what `body` says. Log entry 8. -/
def vecStep (op : Nat) (bad : Bool) (body : Cell → VRes) (c : Cell) : Cell :=
  if !c.vec.running || decide (c.vec.waiting ≠ 0 ∧ c.vec.waiting ≠ op) then c
  else if 24575 < c.vec.pc then vecFault c 2
  else if bad then vecFault c 1
  else vecEnd op c.vec.pc (body c)

/-! Class R (R129, R130). -/

/-- Whether lane `l` is active (R130). -/
def active (v : Vec) (r : VRForm) (l : Nat) : Bool := decide (r.men = 0) || bit (kget v r.mr.toNat) l

/-- What an instruction of class R uses: VB, VC, rounding, and what FMT, SUB and IMM8 may hold. -/
structure RUse where
  vb : Bool
  vc : Bool
  rnd : Nat → Bool
  fmt : Nat → Bool
  sub : Nat → Bool
  imm : Bool
  men : Bool
  kd : Bool

def noRnd (n : Nat) : Bool := decide (n = 0)
def anyRnd (_ : Nat) : Bool := true
def fmtNone (n : Nat) : Bool := decide (n = 0)
def fmtFp (n : Nat) : Bool := decide (n ≤ 1)
def subNone (n : Nat) : Bool := decide (n = 0)

/-- A class R encoding's reserved fields and encodings (R129, R130). -/
def rBad (r : VRForm) (u : RUse) : Bool :=
  decide (r.rsv ≠ 0) || (!u.vb && decide (r.vb ≠ 0)) || (!u.vc && decide (r.vc ≠ 0)) || !u.rnd r.rnd.toNat ||
    !u.fmt r.fmt.toNat || !u.sub r.sub.toNat || (!u.imm && decide (r.imm8 ≠ 0)) ||
    (decide (r.men = 0) && decide (r.mr ≠ 0 ∨ r.mz ≠ 0)) || (!u.men && decide (r.men ≠ 0)) ||
    (u.kd && decide (8 ≤ r.vd.toNat))

/-- A destination's lanes under the mask (R130). -/
def maskLanes (v : Vec) (r : VRForm) (new : List Word32) : List Word32 :=
  let old := vget v r.vd.toNat
  (List.range 64).map (fun l => if active v r l then ln new l else if r.mz = 1 then 0 else ln old l)

/-- A mask destination's bits under the mask (R130). -/
def maskBits (v : Vec) (r : VRForm) (new : Word) : Word :=
  let act : Word := if r.men = 0 then -1 else kget v r.mr.toNat
  (new &&& act) ||| (if r.mz = 1 then 0 else kget v r.vd.toNat &&& ~~~ act)

/-- A vector result and the generator after it. -/
def putLanes (r : VRForm) (p : List Word32 × Word32) (c : Cell) : VRes :=
  .done { c with vec := { vset c.vec r.vd.toNat (maskLanes c.vec r p.1) with sr := p.2 } }

/-- An instruction whose result is a vector register. -/
def vecOp (op : Nat) (r : VRForm) (u : RUse) (f : Vec → List Word32 × Word32) (c : Cell) : Cell :=
  vecStep op (rBad r u) (fun c => putLanes r (f c.vec) c) c

/-- An instruction whose result is a mask register. -/
def vecMask (op : Nat) (r : VRForm) (u : RUse) (f : Vec → Word) (c : Cell) : Cell :=
  vecStep op (rBad r u)
    (fun c => .done { c with vec := kset c.vec r.vd.toNat (maskBits c.vec r (f c.vec)) }) c

/-- The draw of value `i` of a list of draws. -/
def dr (ds : List Nat) (i : Nat) : Nat := (ds[i]?).getD 0

/-- One value rounded to FP32 or BF16 code. -/
def rnd32 (mode draw : Nat) (p : Val × Bool) : Word32 := toFp32 mode draw p.1 p.2
def rnd16 (mode draw : Nat) (p : Val × Bool) : Half := toBf16 mode draw p.1 p.2

def lowHalf (w : Word32) : Half := w.setWidth 16
def highHalf (w : Word32) : Half := (w >>> 16).setWidth 16
def packHalves (lo hi : Half) : Word32 := BitVec.ofNat 32 (lo.toNat + hi.toNat * 65536)

/-- Elementwise arithmetic in FP32 or packed BF16, each result rounded once (R131, Table 03-9); draws in lane order,
the low half before the high (R75). -/
def arith (r : VRForm) (f : Val → Val → Val → Val × Bool) (v : Vec) : List Word32 × Word32 :=
  let a := vget v r.va.toNat
  let b := vget v r.vb.toNat
  let c := vget v r.vc.toNat
  let m := r.rnd.toNat
  if r.fmt = 0 then
    let d := blockDraws m 64 v.sr
    ((List.range 64).map (fun l =>
      rnd32 m (dr d.1 l) (f (ofFp32 (ln a l)) (ofFp32 (ln b l)) (ofFp32 (ln c l)))), d.2)
  else
    let d := blockDraws m 128 v.sr
    let h := fun (g : Word32 → Half) (l k : Nat) =>
      rnd16 m (dr d.1 k) (f (ofBf16 (g (ln a l))) (ofBf16 (g (ln b l))) (ofBf16 (g (ln c l))))
    ((List.range 64).map (fun l => packHalves (h lowHalf l (2 * l)) (h highHalf l (2 * l + 1))), d.2)

def exactly (v : Val) : Val × Bool := (v, false)

def useFp (vb vc : Bool) : RUse := ⟨vb, vc, anyRnd, fmtFp, subNone, false, true, false⟩
def useFp32 (vb : Bool) : RUse := ⟨vb, false, anyRnd, fmtNone, subNone, false, true, false⟩
def useSel (vb : Bool) : RUse := ⟨vb, false, noRnd, fmtFp, subNone, false, true, false⟩
def useInt (vb : Bool) : RUse := ⟨vb, false, noRnd, fmtNone, subNone, false, true, false⟩

def vaddOp (r : VRForm) : Cell → Cell := vecOp 0x10 r (useFp true false) (arith r (fun a b _ => exactly (a.add b)))
def vsubOp (r : VRForm) : Cell → Cell := vecOp 0x11 r (useFp true false) (arith r (fun a b _ => exactly (a.add b.neg)))
def vmulOp (r : VRForm) : Cell → Cell := vecOp 0x12 r (useFp true false) (arith r (fun a b _ => exactly (a.mul b)))
def vfmaOp (r : VRForm) : Cell → Cell :=
  vecOp 0x13 r (useFp true true) (arith r (fun a b c => exactly ((a.mul b).add c)))
def vfnmaOp (r : VRForm) : Cell → Cell :=
  vecOp 0x14 r (useFp true true) (arith r (fun a b c => exactly (c.add (a.mul b).neg)))
def vminOp (r : VRForm) : Cell → Cell := vecOp 0x15 r (useSel true) (arith r (fun a b _ => exactly (a.min b)))
def vmaxOp (r : VRForm) : Cell → Cell := vecOp 0x16 r (useSel true) (arith r (fun a b _ => exactly (a.max b)))
def vdivOp (r : VRForm) : Cell → Cell := vecOp 0x17 r (useFp32 true) (arith r (fun a b _ => a.div b))
def vsqrtOp (r : VRForm) : Cell → Cell := vecOp 0x18 r (useFp32 false) (arith r (fun a _ _ => a.sqrt))
def vrsqrtOp (r : VRForm) : Cell → Cell := vecOp 0x19 r (useFp32 false) (arith r (fun a _ _ => a.rsqrt))
def vexp2Op (r : VRForm) : Cell → Cell := vecOp 0x1A r (useFp32 false) (arith r (fun a _ _ => a.exp2))
def vlog2Op (r : VRForm) : Cell → Cell := vecOp 0x1B r (useFp32 false) (arith r (fun a _ _ => a.log2))
def vabsOp (r : VRForm) : Cell → Cell := vecOp 0x1C r (useSel false) (arith r (fun a _ _ => exactly a.abs))
def vnegOp (r : VRForm) : Cell → Cell := vecOp 0x1D r (useSel false) (arith r (fun a _ _ => exactly a.neg))

/-! Compares (R131, R83). -/

def vcmpOp (r : VRForm) : Cell → Cell :=
  vecMask 0x20 r ⟨decide (r.sub.toNat < 6), false, noRnd, fmtNone, fun _ => true, false, true, true⟩
    (fun v =>
      let a := vget v r.va.toNat
      let b := vget v r.vb.toNat
      bitsOf (fun l => fpPred r.sub.toNat (ofFp32 (ln a l)) (ofFp32 (ln b l))))

def vicmpOp (r : VRForm) : Cell → Cell :=
  vecMask 0x21 r ⟨true, false, noRnd, fmtNone, fun n => decide (n ≤ 5), false, true, true⟩
    (fun v =>
      let a := vget v r.va.toNat
      let b := vget v r.vb.toNat
      bitsOf (fun l => intPred r.sub.toNat (ln a l) (ln b l)))

/-! Reductions (R132). -/

/-- A tree node: of two active operands their combination, of one that one, of none none. -/
def node (f : Word32 → Word32 → Word32) : Option Word32 → Option Word32 → Option Word32
  | some a, some b => some (f a b)
  | some a, none => some a
  | none, b => b

/-- The tree over eight operands (R132). -/
def tree8 (f : Word32 → Word32 → Word32) (x : Nat → Option Word32) : Option Word32 :=
  node f (node f (node f (x 0) (x 1)) (node f (x 2) (x 3))) (node f (node f (x 4) (x 5)) (node f (x 6) (x 7)))

/-- A tile's reduction: the result of each lane (R132). `x`: the active lanes; `e`: the empty result. -/
def reduceTile (shape : Nat) (f : Word32 → Word32 → Word32) (e : Word32) (x : Nat → Option Word32) : List Word32 :=
  let row := fun (r : Nat) => tree8 f (fun c => x (8 * r + c))
  let col := fun (c : Nat) => tree8 f (fun r => x (8 * r + c))
  let rows := (List.range 8).map row
  let cols := (List.range 8).map col
  let whole := tree8 f (fun r => (rows[r]?).getD none)
  (List.range 64).map (fun l =>
    ((if shape = 0 then (rows[l / 8]?).getD none else if shape = 1 then (cols[l % 8]?).getD none else whole).getD e))

/-- A reduction in FP32 or packed BF16; in BF16 the halves are reduced apart, each as FP32 codes of BF16 values. -/
def reduce (r : VRForm) (f : Val → Val → Val) (empty : Val) (v : Vec) : List Word32 × Word32 :=
  let a := vget v r.va.toNat
  let m := r.rnd.toNat
  let sh := r.sub.toNat
  if r.fmt = 0 then
    (reduceTile sh (fun x y => toFp32 m 0 (f (ofFp32 x) (ofFp32 y)) false) (toFp32 0 0 empty false)
      (fun l => if active v r l then some (toFp32 0 0 (ofFp32 (ln a l)) false) else none), v.sr)
  else
    let up := fun (h : Half) => (BitVec.ofNat 32 (h.toNat * 65536) : Word32)
    let half := fun (g : Word32 → Half) =>
      reduceTile sh (fun x y => up (toBf16 m 0 (f (ofFp32 x) (ofFp32 y)) false)) (up (toBf16 0 0 empty false))
        (fun l => if active v r l then some (up (toBf16 0 0 (ofBf16 (g (ln a l))) false)) else none)
    let lo := half lowHalf
    let hi := half highHalf
    ((List.range 64).map (fun l => packHalves (highHalf (ln lo l)) (highHalf (ln hi l))), v.sr)

/-- A reduction's result, in every lane of its row, its column or the tile, active or not (R132; log entry 34). -/
def redOp (op : Nat) (r : VRForm) (u : RUse) (f : Vec → List Word32 × Word32) (c : Cell) : Cell :=
  vecStep op (rBad r u) (fun c =>
    let p := f c.vec
    .done { c with vec := { vset c.vec r.vd.toNat p.1 with sr := p.2 } }) c

def useRed (rnd : Nat → Bool) : RUse := ⟨false, false, rnd, fmtFp, fun n => decide (n ≤ 2), false, true, false⟩

def vrsumOp (r : VRForm) : Cell → Cell :=
  redOp 0x28 r (useRed (fun n => decide (n ≤ 2))) (reduce r Val.add Val.zero)
def vrmaxOp (r : VRForm) : Cell → Cell := redOp 0x29 r (useRed noRnd) (reduce r Val.max (.inf true))
def vrminOp (r : VRForm) : Cell → Cell := redOp 0x2A r (useRed noRnd) (reduce r Val.min (.inf false))

/-! Conversions (R133, R134, R77). -/

/-- VCVT to packed BF16: the 32 lanes of the chosen half, the others as they were (R133). -/
def cvtDown (r : VRForm) (v : Vec) : List Word32 × Word32 :=
  let a := vget v r.va.toNat
  let old := vget v r.vd.toNat
  let m := r.rnd.toNat
  let d := blockDraws m 64 v.sr
  let h := r.sub.toNat % 2
  let e := fun (k : Nat) => toBf16 m (dr d.1 k) (ofFp32 (ln a k)) false
  let z := fun (l : Nat) => if active v r l then packHalves (e (2 * (l % 32))) (e (2 * (l % 32) + 1))
    else if r.mz = 1 then 0 else ln old l
  ((List.range 64).map (fun l => if l / 32 = h then z l else ln old l), d.2)

/-- VCVT to FP32 (R133). -/
def cvtUp (r : VRForm) (v : Vec) : List Word32 × Word32 :=
  let a := vget v r.va.toNat
  let h := r.sub.toNat % 2
  ((List.range 64).map (fun l =>
    let w := ln a (32 * h + l / 2)
    toFp32 0 0 (ofBf16 (if l % 2 = 0 then lowHalf w else highHalf w)) false), v.sr)

/-- VCVT (R133): the direction is FMT; only the conversion to BF16 rounds. -/
def vcvtOp (r : VRForm) : Cell → Cell :=
  vecStep 0x30
    (rBad r ⟨false, false, if r.fmt = 1 then anyRnd else noRnd, fmtFp, fun n => decide (n ≤ 1), false, true, false⟩)
    (fun c =>
      if r.fmt = 1 then
        let p := cvtDown r c.vec
        .done { c with vec := { vset c.vec r.vd.toNat p.1 with sr := p.2 } }
      else putLanes r (cvtUp r c.vec) c)

/-- FP32 to int32 (R83): NaN gives 0, beyond the range saturates. -/
def toInt32 (mode draw : Nat) (v : Val) : Word32 :=
  match v with
  | .nan => 0
  | .inf n => if n then 0x80000000 else 0x7FFFFFFF
  | .fin n m e =>
    if m ≠ 0 ∧ 40 < flog2 m e then (if n then 0x80000000 else 0x7FFFFFFF)
    else
      let k := roundInt mode draw m e
      if n then (if 2 ^ 31 ≤ k then 0x80000000 else BitVec.ofInt 32 (-(k : Int)))
      else (if 2 ^ 31 ≤ k then 0x7FFFFFFF else BitVec.ofNat 32 k)

def vf2iOp (r : VRForm) : Cell → Cell :=
  vecOp 0x31 r ⟨false, false, anyRnd, fmtNone, subNone, false, true, false⟩
    (fun v =>
      let d := blockDraws r.rnd.toNat 64 v.sr
      let a := vget v r.va.toNat
      ((List.range 64).map (fun l => toInt32 r.rnd.toNat (dr d.1 l) (ofFp32 (ln a l))), d.2))

def vi2fOp (r : VRForm) : Cell → Cell :=
  vecOp 0x32 r ⟨false, false, anyRnd, fmtNone, subNone, false, true, false⟩
    (fun v =>
      let d := blockDraws r.rnd.toNat 64 v.sr
      let a := vget v r.va.toNat
      ((List.range 64).map (fun l =>
        let x := (ln a l).toInt
        toFp32 r.rnd.toNat (dr d.1 l) (.fin (decide (x < 0)) x.natAbs 0) false), d.2))

/-- The two-block register layout of VQMX: payload h at byte h*P, scale code at 192 + h, zeros elsewhere (R133). -/
def mxImage (p : Nat) (b0 b1 : Nat × Nat) : List Word32 :=
  let pay := toLe b0.2 p ++ toLe b1.2 p
  bytesLanes (pay ++ List.replicate (192 - 2 * p) 0 ++ [BitVec.ofNat 8 b0.1, BitVec.ofNat 8 b1.1] ++
    List.replicate 62 0)

/-- VQMX (R133): two blocks, with their NaN blocks counted. -/
def vqmxOp (r : VRForm) : Cell → Cell :=
  vecStep 0x33
    (rBad r ⟨false, false, anyRnd, fun n => decide (2 ≤ n ∧ n ≤ 6), fun n => decide (n ≤ 1), decide (r.sub = 1), false, false⟩)
    (fun c =>
      let f := r.fmt.toNat
      let vs := (vget c.vec r.va.toNat).map ofFp32
      let sup := if r.sub = 1 then some r.imm8.toNat else none
      let d := blockDraws r.rnd.toNat 64 c.vec.sr
      let b0 := toMxDraws f r.rnd.toNat sup (vs.take 32) (d.1.take 32)
      let b1 := toMxDraws f r.rnd.toNat sup (vs.drop 32) (d.1.drop 32)
      let n := ofBool (decide (b0.1 = 255)) + ofBool (decide (b1.1 = 255))
      let c := { c with vec := { vset c.vec r.vd.toNat (mxImage (payBytes f) b0 b1) with sr := d.2 } }
      .done (if n = 0 then c else c.note (.count 2 2 0 n)))

/-- Block `h` of the two-block layout, as its values without the scale, and its scale code. -/
def mxBlockAt (f : Nat) (img : List Byte) (h : Nat) : Nat × Nat := (le img (192 + h) 1, le img (h * payBytes f) (payBytes f))

/-- VDQMX (R133). -/
def vdqmxOp (r : VRForm) : Cell → Cell :=
  vecStep 0x34
    (rBad r ⟨false, false, noRnd, fun n => decide (2 ≤ n ∧ n ≤ 8), subNone, false, false, false⟩)
    (fun c =>
      let f := r.fmt.toNat
      let img := laneBytes (vget c.vec r.va.toNat)
      let b0 := mxBlockAt f img 0
      let b1 := mxBlockAt f img 1
      .done { c with vec := vset c.vec r.vd.toNat (mxToFp32 f b0.2 b0.1 ++ mxToFp32 f b1.2 b1.1) })

/-- VSKETCH (R134): 16 bytes of codes, zeros elsewhere; an inactive lane keeps its code or loses it. -/
def vsketchOp (r : VRForm) : Cell → Cell :=
  vecStep 0x35
    (rBad r ⟨false, false, noRnd, fun n => decide (n = 0 ∨ (2 ≤ n ∧ n ≤ 6)), subNone, true, true, false⟩)
    (fun c =>
      let f := r.fmt.toNat
      let e := r.imm8.toInt
      let ls := vget c.vec r.va.toNat
      let img := laneBytes ls
      let blk := fun (h : Nat) =>
        let b := mxBlockAt f img h
        (blockVals f b.2 b.1).map (fun v => v.scale ((b.1 : Int) - 127))
      let vs := if f = 0 then ls.map ofFp32 else blk 0 ++ blk 1
      let old := le (laneBytes (vget c.vec r.vd.toNat)) 0 16
      let codes := (List.range 64).map (fun l =>
        if active c.vec r l then sketchCode e ((vs[l]?).getD Val.zero)
        else if r.mz = 1 then 0 else old / 4 ^ l % 4)
      let out := bytesLanes (toLe (packElems 2 codes) 16 ++ List.replicate 240 0)
      .done { c with vec := vset c.vec r.vd.toNat out })

/-! Integer, move and mask instructions (R131). -/

/-- An elementwise function of two registers' lanes. -/
def lanes2 (r : VRForm) (f : Word32 → Word32 → Word32) (v : Vec) : List Word32 × Word32 :=
  let a := vget v r.va.toNat
  let b := vget v r.vb.toNat
  ((List.range 64).map (fun l => f (ln a l) (ln b l)), v.sr)

def intOp (op : Nat) (r : VRForm) (f : Word32 → Word32 → Word32) : Cell → Cell := vecOp op r (useInt true) (lanes2 r f)

def viaddOp (r : VRForm) : Cell → Cell := intOp 0x40 r (· + ·)
def visubOp (r : VRForm) : Cell → Cell := intOp 0x41 r (· - ·)
def vimulOp (r : VRForm) : Cell → Cell := intOp 0x42 r (· * ·)
def vandOp (r : VRForm) : Cell → Cell := intOp 0x43 r (· &&& ·)
def vorOp (r : VRForm) : Cell → Cell := intOp 0x44 r (· ||| ·)
def vxorOp (r : VRForm) : Cell → Cell := intOp 0x45 r (· ^^^ ·)
def vshlOp (r : VRForm) : Cell → Cell := intOp 0x46 r (fun a b => a <<< (b.toNat % 32))
def vshrOp (r : VRForm) : Cell → Cell := intOp 0x47 r (fun a b => a >>> (b.toNat % 32))
def vsraOp (r : VRForm) : Cell → Cell := intOp 0x48 r (fun a b => a.sshiftRight (b.toNat % 32))
def viminOp (r : VRForm) : Cell → Cell := intOp 0x49 r (fun a b => if b.slt a then b else a)
def vimaxOp (r : VRForm) : Cell → Cell := intOp 0x4A r (fun a b => if a.slt b then b else a)

def vmovOp (r : VRForm) : Cell → Cell := vecOp 0x50 r (useInt false) (fun v => (vget v r.va.toNat, v.sr))

def vpermOp (r : VRForm) : Cell → Cell :=
  vecOp 0x51 r (useInt true) (fun v =>
    let a := vget v r.va.toNat
    let b := vget v r.vb.toNat
    ((List.range 64).map (fun l => ln a ((ln b l).toNat % 64)), v.sr))

def vtransOp (r : VRForm) : Cell → Cell :=
  vecOp 0x52 r (useInt false) (fun v =>
    let a := vget v r.va.toNat
    ((List.range 64).map (fun l => ln a (8 * (l % 8) + l / 8)), v.sr))

def vbcastOp (r : VRForm) : Cell → Cell :=
  vecStep 0x53
    (rBad r ⟨false, false, noRnd, fmtNone, subNone, true, true, false⟩ || decide (63 < r.imm8.toNat))
    (fun c => putLanes r (List.replicate 64 (ln (vget c.vec r.va.toNat) r.imm8.toNat), c.vec.sr) c)

/-- VSPLAT, class I (R131). -/
def vsplatOp (r : VIForm) : Cell → Cell :=
  vecStep 0x54 (decide (r.rsv ≠ 0))
    (fun c => .done { c with vec := vset c.vec r.vd.toNat (List.replicate 64 r.imm) })

/-- The KLOGIC functions. -/
def kFn (k : Nat) (a b : Word) : Word :=
  match k with
  | 0 => a &&& b
  | 1 => a ||| b
  | 2 => a ^^^ b
  | 3 => a &&& ~~~ b
  | 4 => ~~~ a
  | 5 => -1
  | _ => 0

def klogicOp (r : VRForm) : Cell → Cell :=
  vecStep 0x58
    (rBad r ⟨decide (r.sub.toNat ≤ 3), false, noRnd, fmtNone, fun n => decide (n ≤ 6), false, true, true⟩ ||
      decide (8 ≤ r.va.toNat ∨ 8 ≤ r.vb.toNat ∨ (5 ≤ r.sub.toNat ∧ r.va ≠ 0)))
    (fun c =>
      let w := kFn r.sub.toNat (kget c.vec r.va.toNat) (kget c.vec r.vb.toNat)
      .done { c with vec := kset c.vec r.vd.toNat (maskBits c.vec r w) })

def kpopOp (r : VRForm) : Cell → Cell :=
  vecStep 0x59 (rBad r (useInt false) || decide (8 ≤ r.va.toNat))
    (fun c => putLanes r
      (List.replicate 64 (BitVec.ofNat 32 (popcount 64 (kget c.vec r.va.toNat).toNat)), c.vec.sr) c)

def kfromvOp (r : VRForm) : Cell → Cell :=
  vecMask 0x5A r ⟨false, false, noRnd, fmtNone, subNone, false, true, true⟩
    (fun v => let a := vget v r.va.toNat; bitsOf (fun l => decide (ln a l ≠ 0)))

def vfromkOp (r : VRForm) : Cell → Cell :=
  vecStep 0x5B (rBad r (useInt false) || decide (8 ≤ r.va.toNat))
    (fun c => putLanes r
      ((List.range 64).map (fun l => if bit (kget c.vec r.va.toNat) l then 1 else 0), c.vec.sr) c)

/-! Memory (R135). -/

/-- The first row of a class M access (R135). -/
def rowBase (v : Vec) (r : VMForm) : Nat := ((aget v r.ar.toNat).toNat + r.off.toNat) % 65536

/-- The rows of a load or store of four rows, by FORM: plain or strided. -/
def formRow (r : VMForm) (base k : Nat) : Nat := if r.form = 1 then base + k * r.stride.toNat else base + k

/-- Encodings that VLD and VST share (R135): FORM by unit, STRIDE and WID only where used. A STRIDE or a WID that R46 or
R48 does not list is a bad address (R55; log entry 34). -/
def mBad (r : VMForm) (trans : Bool) : Bool :=
  decide (9 ≤ r.unit.toNat) || decide (r.srcb ≠ 0 ∨ r.len ≠ 0 ∨ r.db ≠ 0) ||
    (match r.form.toNat with
     | 0 => decide (r.stride ≠ 0 ∨ r.wid ≠ 0)
     | 1 => decide (r.wid ≠ 0 ∨ r.unit ≠ 6)
     | 2 => !trans || decide (r.stride ≠ 0 ∨ r.unit ≠ 6 ∨ r.vd.toNat % 2 = 1)
     | _ => true)

/-- Whether the rows of a plain or strided access lie in the unit, with a STRIDE of R46 (R55); a strided store's STRIDE is
held to the same rule (DESIGN CHOICE, log entry 34). -/
def rowsOk (r : VMForm) (base : Nat) : Bool :=
  let top := formRow r base 3
  decide (top < unitRows r.unit.toNat) && (decide (r.form ≠ 1) || decide (1 ≤ r.stride.toNat ∧ r.stride.toNat ≤ 3071))

/-- Rows read one by one; whether any came back bad (R59). -/
def loadRows (unit : Nat) (row : Nat → Nat) : Nat → Nat → Cell → Cell × Bool × List Byte
  | 0, _, c => (c, false, [])
  | n + 1, k, c =>
    let a := c.readRows 6 unit (row k) 1
    let b := loadRows unit row n (k + 1) a.1
    (b.1, a.2 || b.2.1, c.row unit (row k) ++ b.2.2)

/-- Element bits of a transposed read by WID (R135). -/
def widBits (wid : Nat) : Nat := ([4, 8, 16, 32, 64][wid]?).getD 4

/-- The 8 output rows of a transposed read as 512 bytes (R48). -/
def transposeRows (w : Nat) (rows : List Byte) : List Byte :=
  let c := 64 / w
  (List.range 8).flatMap (fun k =>
    let es := (List.range (512 / w)).map (fun p => le rows (64 * (p % 8)) 64 / 2 ^ ((k * c + p / 8) * w) % 2 ^ w)
    toLe (packElems w es) 64)

/-- VLD (R135). -/
def vldOp (r : VMForm) : Cell → Cell :=
  vecStep 0x60 (mBad r true || decide (r.men ≠ 0 ∨ r.mr ≠ 0))
    (fun c =>
      let b := rowBase c.vec r
      if r.form = 2 then
        if 3071 < b + 7 ∨ 5 ≤ r.wid.toNat then .fault c 2
        else
          let p := loadRows 6 (fun k => b + k) 8 0 c
          if p.2.1 then .fault p.1 3
          else
            let o := transposeRows (widBits r.wid.toNat) p.2.2
            let v := vset p.1.vec r.vd.toNat (bytesLanes (o.take 256))
            .done { p.1 with vec := vset v (r.vd.toNat + 1) (bytesLanes (o.drop 256)) }
      else if !rowsOk r b then .fault c 2
      else
        let p := loadRows r.unit.toNat (formRow r b) 4 0 c
        if p.2.1 then .fault p.1 3
        else .done { p.1 with vec := vset p.1.vec r.vd.toNat (bytesLanes p.2.2) })

/-- The byte mask of row `k` of a masked store (R135). -/
def storeMask (v : Vec) (r : VMForm) (k : Nat) : Nat :=
  ((List.range 16).map (fun j =>
    if r.men = 0 || bit (kget v r.mr.toNat) (16 * k + j) then 15 * 16 ^ j else 0)).foldl (· + ·) 0

/-- The rows of a store written, each with its mask (R37); whether every crossbar transfer got through (R59). -/
def storeRows (unit : Nat) (row : Nat → Nat) (img : List Byte) (mask : Nat → Nat) : Nat → Nat → Cell → Cell × Bool
  | 0, _, c => (c, true)
  | n + 1, k, c =>
    let p := c.crossing (decide (unit = 6))
    if p.2 then storeRows unit row img mask n (k + 1) (p.1.maskRow unit (row k) (slice img (64 * k) 64) (mask k)) else p

/-- What the crossbar told of a store that failed: it has no effect (R138, log entry 43). -/
def crossTold (c d : Cell) : Cell := { c with notes := d.notes, xbarParity := d.xbarParity }

/-- VST (R135): inactive lanes are not written. -/
def vstOp (r : VMForm) : Cell → Cell :=
  vecStep 0x61 (mBad r false || decide (r.men = 0 ∧ r.mr ≠ 0))
    (fun c =>
      let b := rowBase c.vec r
      if !rowsOk r b then .fault c 2
      else
        let img := laneBytes (vget c.vec r.vd.toNat)
        let p := storeRows r.unit.toNat (formRow r b) img (storeMask c.vec r) 4 0 c
        if p.2 then .done p.1 else .fault (crossTold c p.1) 3)

/-- VSTP (R135): one or two rows. -/
def vstpOp (r : VMForm) : Cell → Cell :=
  let n := 8 * (r.len.toNat + 1)
  vecStep 0x62
    (decide (9 ≤ r.unit.toNat ∨ r.form ≠ 0 ∨ r.stride ≠ 0 ∨ r.wid ≠ 0 ∨ r.men ≠ 0 ∨ r.mr ≠ 0 ∨ 256 < 8 * r.srcb.toNat + n))
    (fun c =>
      let b := rowBase c.vec r
      let o := 64 * b + 8 * r.db.toNat
      if unitBytes r.unit.toNat < o + n ∨ unitRows r.unit.toNat ≤ b then .fault c 2
      else
        let p := c.crossing (decide (r.unit = 6))
        if p.2 then .done (p.1.write r.unit.toNat o (slice (laneBytes (vget c.vec r.vd.toNat)) (8 * r.srcb.toNat) n))
        else .fault p.1 3)

/-! Control and tokens (class C). -/

/-- The fields of class C that an instruction uses. -/
structure CUse where
  vd : Bool
  ar : Bool
  ka : Bool
  sub : Bool
  port : Bool
  grp : Bool
  target : Bool
  imm : Bool

def cBad (r : VCForm) (u : CUse) : Bool :=
  decide (r.rsv ≠ 0 ∨ r.rsv2 ≠ 0) || (!u.vd && decide (r.vd ≠ 0)) || (!u.ar && decide (r.ar ≠ 0)) ||
    (!u.ka && decide (r.ka ≠ 0)) || (if u.sub then decide (1 < r.sub.toNat) else decide (r.sub ≠ 0)) ||
    (!u.port && decide (r.port ≠ 0)) || (!u.grp && decide (r.grp ≠ 0)) || (!u.target && decide (r.target ≠ 0)) ||
    (!u.imm && decide (r.imm ≠ 0))

def vsetaiOp (r : VCForm) : Cell → Cell :=
  vecStep 0x70 (cBad r ⟨false, true, false, false, false, false, false, true⟩)
    (fun c => .done { c with vec := aset c.vec r.ar.toNat r.imm })

def vaddaiOp (r : VCForm) : Cell → Cell :=
  vecStep 0x71 (cBad r ⟨false, true, false, false, false, false, false, true⟩)
    (fun c => .done { c with vec := aset c.vec r.ar.toNat (aget c.vec r.ar.toNat + r.imm) })

def vloopOp (r : VCForm) : Cell → Cell :=
  vecStep 0x72 (cBad r ⟨false, true, false, false, false, false, true, false⟩)
    (fun c =>
      let a := aget c.vec r.ar.toNat - 1
      let c := { c with vec := aset c.vec r.ar.toNat a }
      if a ≠ 0 then .jump c r.target.toNat else .done c)

def vjmpOp (r : VCForm) : Cell → Cell :=
  vecStep 0x73 (cBad r ⟨false, false, false, false, false, false, true, false⟩) (fun c => .jump c r.target.toNat)

def vbrkOp (r : VCForm) : Cell → Cell :=
  vecStep 0x74 (cBad r ⟨false, false, true, true, false, false, true, false⟩)
    (fun c => if (decide (kget c.vec r.ka.toNat ≠ 0)) = decide (r.sub = 0) then .jump c r.target.toNat else .done c)

/-- Whether a token instruction waits for the release (R173): its cell has acknowledged the requested scene change, and it was not
waiting already when it did. -/
def tokenWaits (e : Env) (c : Cell) : Bool :=
  e.sceneReq && (c.sc.acked || c.sc.ended) && (c.vec.held || decide (c.vec.waiting = 0))

/-- It waits for the release. -/
def waitRelease (c : Cell) : VRes := .wait { c with vec := { c.vec with held := true } }

/-- VTIN (R156): eight lanes from the next token; a poisoned one faults and is consumed. -/
def vtinOp (e : Env) (r : VCForm) : Cell → Cell :=
  vecStep 0x75 (cBad r ⟨true, false, false, false, true, true, false, false⟩)
    (fun c =>
      if tokenWaits e c then waitRelease c
      else
        match c.rig.portIn 0xD0 r.port.toNat with
        | .unbound => .fault c 1
        | .empty => .wait c
        | .token t q =>
          let c := c.takeToken q
          if t.bad then .fault c 3
          else
            let old := vget c.vec r.vd.toNat
            let g := r.grp.toNat
            .done { c with vec := vset c.vec r.vd.toNat ((List.range 64).map (fun l =>
              if l / 8 = g then BitVec.ofNat 32 (le t.bytes (4 * (l % 8)) 4) else ln old l)) })

/-- VTOUT (R156). -/
def vtoutOp (e : Env) (r : VCForm) : Cell → Cell :=
  vecStep 0x76 (cBad r ⟨true, false, false, false, true, true, false, false⟩)
    (fun c =>
      if tokenWaits e c then waitRelease c
      else
        match c.rig.portOut 0xD0 r.port.toNat with
        | .unbound => .fault c 1
        | .full => .wait c
        | .queue q =>
          let ls := vget c.vec r.vd.toNat
          let t := ((ls.drop (8 * r.grp.toNat)).take 8).flatMap (fun w => toLe w.toNat 4)
          .done { c with rig := c.rig.put q ⟨t, false, 0⟩ })

/-- VFENCE (R131): every earlier store has landed when the step ends. -/
def vfenceOp (r : VCForm) : Cell → Cell :=
  vecStep 0x77 (cBad r ⟨false, false, false, false, false, false, false, false⟩) (fun c => .done c)

/-- VHALT (R131, R135): the core halts and the vector-done event is raised. -/
def vhaltOp (r : VCForm) : Cell → Cell :=
  vecStep 0x7F (cBad r ⟨false, false, false, false, false, false, false, false⟩)
    (fun c => .done { c with vec := { c.vec with running := false }, sc := setEvent c.sc 12 })

/-- VC_STATUS (Table 06-6). -/
def vcStatus (v : Vec) : Word :=
  BitVec.ofNat 64 (v.fault % 256 * 2 ^ 24 + ofBool v.running * 2 ^ 23 + v.pc % 2 ^ 15 * 2 ^ 8)

end Sys2Proof.Machine
end

