-- ==== Sys2Proof/Machine/ScalarSeq.lean ====
section
/-! DEFINITION. The scalar instructions that reach outside the core: fabric accesses (R144), the matrix cores (R145),
the vector core (R146), asides (R148, R222), stream ports (R156), SCENEACK (R149) and JEND (R150). -/

namespace Sys2Proof.Machine

/-! Fabric accesses. -/

/-- A fabric access of the scalar core: a bad address where it is not 8-byte aligned, a wait for a ninth access
(R229) or, with release, for earlier writes (R231); else it goes out and is outstanding. -/
def fabBody (kind : Nat) (x : XForm) (mk : Scalar → FabOp) (c : Cell) : SRes :=
  let a := xget c.sc x.ra.toNat
  let rel := bit x.fn 1
  if bits a 2 0 ≠ 0 then .fault c 2
  else if 8 ≤ c.sc.outst.length then .wait c
  else
    let c := if rel then c.flushGather else c
    if rel ∧ c.sc.outst.any (fun o => decide (o.kind ≠ 0)) = true then .wait c
    else
      let acc : FabAcc := ⟨c.sc.nextId, kind, c.sc.pc, if kind = 1 then 0 else x.rd.toNat, bit x.fn 2, bit x.fn 0, a, mk c.sc, false⟩
      let s := { c.sc with outst := c.sc.outst ++ [acc], nextId := c.sc.nextId + 1 }
      let s := if acc.acq then addBarrier s ⟨[acc.id], 1⟩ else s
      .done ({ c with sc := s }.note (.fab acc.id))

/-- FLD (R144). -/
def fldStep (x : XForm) : Cell → Cell :=
  scalarStep 0x1C 3 [x.ra.toNat, x.rd.toNat] (decide (x.rb ≠ 0 ∨ x.u ≠ 0 ∨ bits x.fn 7 3 ≠ 0))
    (fabBody 0 x (fun _ => .load))

/-- FST (R144). -/
def fstStep (x : XForm) : Cell → Cell :=
  scalarStep 0x1D 4 [x.ra.toNat, x.rb.toNat] (decide (x.rd ≠ 0 ∨ x.u ≠ 0 ∨ bits x.fn 7 3 ≠ 0))
    (fabBody 1 x (fun s => .store (xget s x.rb.toNat)))

/-- FATOM (R144): compare-and-swap compares with rd as it stood. -/
def fatomStep (x : XForm) : Cell → Cell :=
  scalarStep 0x1E 4 [x.ra.toNat, x.rb.toNat, x.rd.toNat]
    (decide (x.u ≠ 0 ∨ bits x.fn 7 6 ≠ 0 ∨ 6 ≤ bits x.fn 5 3))
    (fabBody 2 x (fun s => .atomic (bits x.fn 5 3) (xget s x.rb.toNat) (xget s x.rd.toNat)))

/-- An outstanding access taken out; barriers whose condition holds go. -/
def dropAcc (s : Scalar) (id : Nat) : Scalar :=
  let s := { s with outst := s.outst.filter (fun a => decide (a.id ≠ id)) }
  { s with barriers := s.barriers.filter (barrierLive s) }

/-- A reply's effect on its access (R144, R229, R273): success, unreachable, which keeps the access, or a failure. -/
def fabReplyIn (id : Nat) (r : Reply) (c : Cell) : Cell :=
  match c.sc.outst.find? (fun a => decide (a.id = id)) with
  | none => c
  | some a =>
    if r.status = 2 then
      { c with sc := { c.sc with outst := c.sc.outst.map (fun o => if o.id = id then { o with kept := true } else o) } }
    else
      let c := { c with sc := dropAcc c.sc id }
      if r.status = 0 then
        if a.kind = 1 then c
        else { c with sc := xset c.sc a.rd (BitVec.ofNat 64 (le r.bytes 0 8)) }
      else
        let s := { c.sc with fstat := r.status }
        if a.nf then { c with sc := if a.kind = 1 then s else xset s a.rd 0 }
        else scalarFault { c with sc := s } 5 a.pc

/-! Matrix cores (R145). -/

/-- MCPUSH (R145). -/
def mcpushStep (x : XForm) : Cell → Cell :=
  scalarStep 0x30 5 [x.ra.toNat, x.rb.toNat, x.rd.toNat] (decide (5 < x.u.toNat ∨ x.fn ≠ 0))
    (fun c =>
      let u := x.u.toNat
      let f := (c.mat u).fault
      if f ≠ 0 then .done { c with sc := xset c.sc x.rd.toNat (BitVec.ofNat 64 f) }
      else
        match matrixPush c u (xget c.sc x.rb.toNat ++ xget c.sc x.ra.toNat) with
        | none => .wait c
        | some c' => .done { c' with sc := xset c'.sc x.rd.toNat 0 })

/-- MCRD (R145). -/
def mcrdStep (x : XForm) : Cell → Cell :=
  scalarStep 0x31 0 [x.rd.toNat] (decide (5 < x.u.toNat ∨ x.ra ≠ 0 ∨ x.rb ≠ 0 ∨ 1 < x.fn.toNat))
    (fun c =>
      let m := c.mat x.u.toNat
      .done { c with sc := xset c.sc x.rd.toNat (if x.fn = 0 then mcStatus m else m.pmask) })

/-- MCCLR (R145). -/
def mcclrStep (x : XForm) : Cell → Cell :=
  scalarStep 0x32 0 [] (decide (5 < x.u.toNat ∨ x.rd ≠ 0 ∨ x.ra ≠ 0 ∨ x.rb ≠ 0 ∨ x.fn ≠ 0))
    (fun c => .done (c.setMat x.u.toNat { c.mat x.u.toNat with fault := 0 }))

/-- MCWAIT (R145). -/
def mcwaitStep (x : XForm) : Cell → Cell :=
  scalarStep 0x33 0 [x.ra.toNat, x.rd.toNat] (decide (5 < x.u.toNat ∨ x.rb ≠ 0 ∨ x.fn ≠ 0))
    (fun c =>
      let m := c.mat x.u.toNat
      let past := (m.completed + 65536 - bits (xget c.sc x.ra.toNat) 15 0) % 65536
      if past < 32768 ∨ m.fault ≠ 0 then
        .done { c with sc := xset c.sc x.rd.toNat (BitVec.ofNat 64 m.fault) }
      else .wait c)

/-! The vector core (R146). -/

/-- An instruction that waits while the vector core runs or holds a fault, then acts on it. -/
def vecIdleBody (f : Scalar → Vec → Vec) (c : Cell) : SRes :=
  if c.vec.running ∨ c.vec.fault ≠ 0 then .wait c else .done { c with vec := f c.sc c.vec }

/-- VSTART (R146). -/
def vstartStep (x : XForm) : Cell → Cell :=
  scalarStep 0x34 5 [x.ra.toNat] (decide (x.rd ≠ 0 ∨ x.rb ≠ 0 ∨ x.u ≠ 0 ∨ x.fn ≠ 0))
    (vecIdleBody (fun s v => { v with pc := bits (xget s x.ra.toNat) 14 0, running := true, waiting := 0, held := false }))

/-- VSETA (R146). -/
def vsetaStep (x : XForm) : Cell → Cell :=
  scalarStep 0x35 0 [x.ra.toNat] (decide (x.rd ≠ 0 ∨ x.rb ≠ 0 ∨ x.fn ≠ 0))
    (vecIdleBody (fun s v => aset v x.u.toNat ((xget s x.ra.toNat).setWidth 16)))

/-- VRD (Table 06-9). -/
def vrdStep (x : XForm) : Cell → Cell :=
  scalarStep 0x36 0 [x.rd.toNat] (decide (x.ra ≠ 0 ∨ x.rb ≠ 0 ∨ 1 < x.fn.toNat))
    (fun c =>
      let w := if x.fn = 0 then vcStatus c.vec else (aget c.vec x.u.toNat).setWidth 64
      .done { c with sc := xset c.sc x.rd.toNat w })

/-- VCLR (R146); the PC is set only while the core is halted (R126). -/
def vclrStep (x : XForm) : Cell → Cell :=
  scalarStep 0x37 0 [] (decide (x.rd ≠ 0 ∨ x.ra ≠ 0 ∨ x.rb ≠ 0 ∨ x.u ≠ 0 ∨ x.fn ≠ 0))
    (fun c => .done { c with vec := { c.vec with fault := 0, pc := if c.vec.running then c.vec.pc else 0 } })

/-- SEEDV (R146, R75). -/
def seedvStep (y : SysForm) : Cell → Cell :=
  scalarStep 0x140 0 [y.ra.toNat] (decide (y.rd ≠ 0 ∨ y.rb ≠ 0 ∨ y.u ≠ 0))
    (vecIdleBody (fun s v => { v with sr := srSeed ((xget s y.ra.toNat).setWidth 32) }))

/-! Asides (R148, R219 to R222). -/

/-- Whether the installed scene enables an outgoing, or incoming, channel of the scalar core (R165, R219). -/
def asideOutOn (g : Rig) (ch : Nat) : Bool := decide (planByte g 0x17 / 2 ^ ch % 2 = 1)
def asideInOn (g : Rig) (ch : Nat) : Bool := decide (planByte g 0x0F / 2 ^ ch % 2 = 1)

/-- The aside map entry of an outgoing channel (Table 09-6): the map follows the plan in its bank. -/
def asideMap (g : Rig) (ch : Nat) : Nat := ofLe (readBytes g.active (2048 + 4 * ch) 4)

/-- Registers from `n`, `k` of them. -/
def xRange (n k : Nat) : List Nat := (List.range k).map (· + n)

/-- ASEND (R148). -/
def asendStep (x : XForm) : Cell → Cell :=
  let n := bits x.fn 1 0 + 1
  scalarStep 0x3A 5 (xRange x.ra.toNat n)
    (decide (x.rd ≠ 0 ∨ x.rb ≠ 0 ∨ bits x.fn 7 2 ≠ 0 ∨ 32 < x.ra.toNat + n))
    (fun c =>
      let ch := x.u.toNat
      if !asideOutOn c.rig ch then .fault c 1
      else .done (c.note (.aside ch ((xRange x.ra.toNat n).map (xget c.sc)))))

def Cell.asideQueue (c : Cell) (ch : Nat) : AsideQ := mget .zero c.asideQ ch

def Cell.setAsideQ (c : Cell) (ch : Nat) (q : AsideQ) : Cell := { c with asideQ := mset .zero c.asideQ ch q }

/-- The offset of a slot of the scalar core's receive area (R38). -/
def slotOff (ch k : Nat) : Nat := 0x2F800 + ch * 0x100 + k % 8 * 0x20

/-- ARECV (R148). -/
def arecvStep (x : XForm) : Cell → Cell :=
  scalarStep 0x3B 0 (xRange x.rd.toNat 4) (decide (x.ra ≠ 0 ∨ x.rb ≠ 0 ∨ bits x.fn 7 1 ≠ 0 ∨ 28 < x.rd.toNat))
    (fun c =>
      let ch := x.u.toNat
      let q := c.asideQueue ch
      match (if asideInOn c.rig ch then q.lens else []) with
      | [] =>
        if bit x.fn 0 then .wait c else .done { c with sc := { c.sc with alen := 0 } }
      | n :: ns =>
        let o := slotOff ch q.head
        let r := (c.flushRow 7 (o / 64)).readRows 7 7 (o / 64) 1
        if r.2 then .fault r.1 3
        else
          let c := r.1
          let ws := (List.range 4).map (fun i => if i < n then BitVec.ofNat 64 (ofLe (c.bytes 7 (o + 8 * i) 8)) else 0)
          let c := c.setAsideQ ch ⟨(q.head + 1) % 8, ns⟩
          .done { c with sc := { xsetList c.sc x.rd.toNat ws with alen := n } })

/-- A message at the delivery port (R54, R222): queued, its slot written whole, or refused, as is one for a channel that
the scene does not enable (R38; log entry 44). The refusal, if any, is for the sender. -/
def deliverAside (ch : Nat) (words : List Word) (bad : List Nat) (c : Cell) : Cell × Bool :=
  let q := c.asideQueue ch
  if 8 ≤ q.lens.length ∨ asideInOn c.rig ch = false then (c, true)
  else
    let bs := wordBytes words
    let o := slotOff ch (q.head + q.lens.length)
    let c := crossWrite c 7 o (bs ++ List.replicate (32 - bs.length) 0) bad
    let c := c.setAsideQ ch ⟨q.head, q.lens ++ [words.length]⟩
    ({ c with sc := setEvent c.sc (16 + ch) }, false)

/-- A refusal at the sender (R148, R222). -/
def refuseIn (ch : Nat) (c : Cell) : Cell :=
  { c with sc := setEvent { c.sc with astat := c.sc.astat ||| 2 ^ ch } 15 }

/-! Stream ports (R156). -/

/-- TIN (R156). -/
def tinStep (x : XForm) : Cell → Cell :=
  scalarStep 0x3C 0 (xRange x.rd.toNat 4) (decide (x.ra ≠ 0 ∨ x.rb ≠ 0 ∨ x.fn ≠ 0 ∨ 28 < x.rd.toNat))
    (fun c =>
      match c.rig.portIn 0xC0 x.u.toNat with
      | .unbound => .fault c 1
      | .empty => .wait c
      | .token t q =>
        let c := c.takeToken q
        if t.bad then .fault c 3
        else .done { c with sc := xsetList c.sc x.rd.toNat ((List.range 4).map (fun i => BitVec.ofNat 64 (le t.bytes (8 * i) 8))) })

/-- TOUT (R156). -/
def toutStep (x : XForm) : Cell → Cell :=
  scalarStep 0x3D 5 (xRange x.ra.toNat 4) (decide (x.rd ≠ 0 ∨ x.rb ≠ 0 ∨ x.fn ≠ 0 ∨ 28 < x.ra.toNat))
    (fun c =>
      match c.rig.portOut 0xC0 x.u.toNat with
      | .unbound => .fault c 1
      | .full => .wait c
      | .queue q =>
        .done { c with rig := c.rig.put q ⟨wordBytes ((xRange x.ra.toNat 4).map (xget c.sc)), false, 0⟩ })

/-! Scene and job (R149, R150). -/

/-- SCENEACK (R149, R169): the acknowledgement once it is requested, then a wait until the release. -/
def sceneackStep (e : Env) (y : SysForm) : Cell → Cell :=
  scalarStep 0x110 5 [y.rd.toNat] (decide (y.ra ≠ 0 ∨ y.rb ≠ 0 ∨ y.u ≠ 0))
    (fun c =>
      let c := c.flushGather
      if c.sc.released then
        .done { c with sc := xset { c.sc with released := false, acked := false } y.rd.toNat (BitVec.ofNat 64 (c.sc.scene % 256)) }
      else if e.sceneReq && !c.sc.acked then
        .wait ({ c with sc := { c.sc with acked := true } }.note .ack)
      else .wait c)

/-- Whether everything JEND waits for has ended (R150). -/
def jobDrained (c : Cell) : Bool :=
  c.sc.outst.isEmpty && (List.range 6).all (fun u => matrixDrained (c.mat u)) && !c.vec.running && c.fly.transfers.isEmpty

/-- JEND (R150). -/
def jendStep (y : SysForm) : Cell → Cell :=
  scalarStep 0x120 5 [y.ra.toNat] (decide (y.rd ≠ 0 ∨ y.rb ≠ 0 ∨ y.u ≠ 0))
    (fun c =>
      let c := c.flushGather
      if jobDrained c then
        .halt ({ c with sc := { c.sc with ended := true } }.note (.ended (bits (xget c.sc y.ra.toNat) 15 0)))
      else .wait c)

end Sys2Proof.Machine
end

