-- ==== Sys2Proof/Machine/Notes.lean ====
section
/-! DEFINITION. What a cell tells the logic around it becomes counts, records, faults, credits and packets (R59, R105, R144, R148,
R151, R159). -/

namespace Sys2Proof.Machine

/-- The logical neighbour of a cell in a direction, across seams and rows out of service (R155, R365). -/
def Mod.neighbour (m : Mod) (f l dir : Nat) : Option (Nat × Nat) :=
  let r := cellRouter f l
  if (dir = 0 ∧ r.2 = 0) ∨ (dir = 1 ∧ r.1 = 215) ∨ (dir = 2 ∧ r.2 = 127) ∨ (dir = 3 ∧ r.1 = 0) then none
  else
    let t := m.nextRouter r.1 r.2 dir
    if m.rowLive t.1 t.2 ∧ t.2 < 128 then some (routerField t.1 t.2, t.2 % 16 * 24 + t.1 % 24) else none

/-- A released entry of a link input's queue: the sending output is owed a credit (R159). -/
def Mod.oweCredit (m : Mod) (f l q : Nat) : Mod :=
  let dir := q / 16
  match m.neighbour f l dir with
  | none => m
  | some (nf, nl) =>
    let k := (dir + 2) % 4 * 80 + q
    m.modCell nf nl (fun x => { x with rig := { x.rig with owed := mset 0 x.rig.owed k (mget 0 x.rig.owed k + 1) } })

/-- The request of an outstanding access of a scalar core (R144). -/
def Mod.accReq (m : Mod) (f l : Nat) (a : FabAcc) : Req :=
  ⟨.scalar f l a.id, (m.coOf f).getD 0, a.addr, a.op, m.gens f l false, none⟩

/-- An access leaves the scalar core (R144, R460). -/
def Mod.sendAcc (m : Mod) (f l id : Nat) : Mod :=
  match (m.cell f l).sc.outst.find? (fun a => decide (a.id = id)) with
  | none => m
  | some a => (m.count 3 2 f l 0 1).issueReq f l (m.accReq f l a)

/-- An aside leaves the scalar core for the cell its channel is bound to (R148, R220, Table 09-1). -/
def Mod.sendAside (m : Mod) (f l ch : Nat) (ws : List Word) : Mod :=
  let e := asideMap (m.cell f l).rig ch
  let df := e / 2 ^ 24 % 128
  let dl := e / 2 ^ 15 % 512
  let dst := cellRouter df dl
  let src := cellRouter f l
  let c := (m.coOf f).getD 0
  (m.count 3 3 f l 0 1).atRouter src.1 src.2
    ⟨false, true, if ws.length ≤ 1 then 1 else 2, dst.1, dst.2, .cell df dl, c, .aside (e / 2 ^ 12 % 8) ws [] f l ch c (m.get (gsCgen c))⟩

/-- Memory words that a read met (R58, R59, Table 17-1); the syndrome is the code's own, which the manual does not give
(log entry 2). -/
def Mod.eccNote (m : Mod) (f l opn w : Nat) (corrected : Bool) : Mod :=
  let d := m.draw
  let u := w * 8 / 2 ^ 18
  if corrected then d.2.record ⟨1, 1, 1, whereCell m f l u, opn, 0, m.coOf f, d.1.toNat⟩
  else (d.2.record ⟨3, 2, 1, whereCell m f l u, opn, 3, m.coOf f, d.1.toNat⟩).mark f l 2

/-- A word of a token queue's entry that a read met in error (R154, Table 17-1); its syndrome is free (log entry 2). -/
def Mod.queueNote (m : Mod) (f l opn : Nat) (corrected : Bool) : Mod :=
  let d := m.draw
  if corrected then d.2.record ⟨1, 1, 1, whereCell m f l 11, opn, 0, m.coOf f, d.1.toNat⟩
  else (d.2.record ⟨3, 2, 1, whereCell m f l 11, opn, 3, m.coOf f, d.1.toNat⟩).mark f l 2

/-- A crossbar transfer with bad parity, retried (R59, Table 17-1); its lane is free (log entry 2). -/
def Mod.xbarNote (m : Mod) (f l opn : Nat) (corrected : Bool) : Mod :=
  let d := m.draw
  if corrected then d.2.record ⟨1, 3, 1, whereCell m f l 10, opn, 0, m.coOf f, bits d.1 2 0⟩
  else (d.2.record ⟨3, 3, 1, whereCell m f l 10, opn, 3, m.coOf f, 256 + bits d.1 2 0⟩).mark f l 3

/-- An accumulator word with bad parity (Tables 04-9, 17-1); its number is free (log entry 2). -/
def Mod.accumNote (m : Mod) (f l opn u : Nat) : Mod :=
  let d := m.draw
  (d.2.record ⟨3, 3, 1, whereCell m f l u, opn, 4, m.coOf f, bits d.1 7 0⟩).mark f l 3

/-- Nanoseconds in 24 hours (R379). -/
def dayNs : Nat := 86400000000000

/-- A check that trips in a cell of a replay that runs here counts for the replay (R375, R376). -/
def Mod.replayTrip (m : Mod) (c f : Nat) : Mod :=
  let e := (m.co c).enc
  if e.phase = 2 ∧ (e.serving = true ∨ (m.get (encMode c) = 1 ∧ m.get (encField c) = f)) then
    m.modCo c (fun x => { x with enc := { x.enc with trips := x.enc.trips + 1 } })
  else m

/-- A check trip in a job cell (R105, R370, R379); how rows and columns share the 16 mask bits of its record the manual
does not say (log entry 2). -/
def Mod.tripNote (m : Mod) (f l opn u acc : Nat) : Mod :=
  let d := m.draw
  let rec_ := fun (m : Mod) (c : Option Nat) (st : Nat) =>
    m.record ⟨2, 5, 1, whereCell m f l u, opn, 0, c, u + acc * 2 ^ 4 + bits d.1 15 0 * 2 ^ 6 + st * 2 ^ 64⟩
  match m.coOf f with
  | none => rec_ d.2 none 0
  | some c =>
    let m := (rec_ d.2 (some c) (m.get (esStep c))).replayTrip c f
    match (m.co c).job with
    | none => m
    | some j =>
      if m.isJobCell c f l then
        let m := (m.addSat (jrTrips c) 1).put (esSuspect c) 1
        if j.tripped.any (fun p => decide (p = (f, l))) then m
        else
          let t := m.time
          let old := (m.co c).trips.filter (fun p => decide (t < p.2 + dayNs))
          let new := old ++ [(f * 384 + l, t)]
          let m := m.modCo c (fun x => { x with job := some { j with tripped := j.tripped ++ [(f, l)] }, trips := new })
          if 3 ≤ (new.filter (fun p => decide (p.1 = f * 384 + l))).length then m.mark f l 4 else m
      else m

/-- One thing a cell tells the logic around it; `opn` is the record's OPERATION (Table 17-6). -/
def Mod.noteOne (f l opn : Nat) (m : Mod) (n : Note) : Mod :=
  match n with
  | .count k code sub k' => m.count k code f l sub k'
  | .ecc w ok => m.eccNote f l opn w ok
  | .token ok => m.queueNote f l opn ok
  | .xbar ok => m.xbarNote f l opn ok
  | .accum u => m.accumNote f l opn u
  | .trip u a => m.tripNote f l opn u a
  | .fault code pc => m.jobFault f l code pc
  | .ended st => m.jendStatus f l st
  | .ack => m
  | .freed q => m.oweCredit f l q
  | .fab id => m.sendAcc f l id
  | .aside ch ws => m.sendAside f l ch ws

/-- A cell's change, and what it tells. -/
def Mod.tellCell (m : Mod) (f l opn : Nat) (g : Cell → Cell) : Mod :=
  let x := g { m.cell f l with notes := [] }
  (m.setCell f l { x with notes := [] }).each x.notes (Mod.noteOne f l opn)

/-- OPERATION: an engine of Table 17-6 and an opcode. -/
def opScalar (op : Nat) : Nat := 256 + op
def opVector (op : Nat) : Nat := 512 + op
def opMatrix (op : Nat) : Nat := 768 + op
def opFly (op : Nat) : Nat := 1024 + op
def opRig (op : Nat) : Nat := 1280 + op
def opMesh (op : Nat) : Nat := 1536 + op
def opRing : Nat := 1792
/-- Events of no engine that Table 17-6 numbers (a scrub, a buffer's flush) are Prompter's (log entry 15). -/
def opStage : Nat := 2048

end Sys2Proof.Machine
end

