-- ==== Sys2Proof/Machine/Power.lean ====
section
/-! DEFINITION. Operating points, clock switches requested (R331, R332, R342, R343) and requests to the power sequencer
(R340, R341). -/

namespace Sys2Proof.Machine

/-- The field clock of an operating point, in 10 MHz (Table 15-4). -/
def opFreq (k : Nat) : Nat := ([40, 50, 60, 70, 75, 80, 85, 90][k]?).getD 40

/-- A switch begun: BUSY, and the field goes to the fallback clock first (R331). The target is a frequency in 10 MHz for the
field PLL, or 0 to stay on the fallback clock. -/
def Mod.beginSwitch (m : Mod) (f target : Nat) : Mod :=
  (m.put (fcBusy f) 1).setField f { m.field f with switching := 1, freq := target }

/-- A switch requested: one that finds BUSY waits (R332). -/
def Mod.requestSwitch (m : Mod) (f target : Nat) : Mod :=
  if m.isSet (fcBusy f) then m.setField f { m.field f with switches := (m.field f).switches ++ [target] }
  else m.beginSwitch f target

/-- A switch ended: the next waiting one begins (R332). -/
def Mod.endSwitch (m : Mod) (f : Nat) : Mod :=
  let m := (m.put (fcBusy f) 0).setField f { m.field f with switching := 0 }
  match (m.field f).switches with
  | [] => m
  | t :: ts => (m.setField f { m.field f with switches := ts }).beginSwitch f t

/-- FIELD_PWR_CTRL and FIELD_VAMP in force: of a field that is off the registers, of one that is on what the last control step took
(R17, R352). -/
def Mod.pwrCtrl (m : Mod) (f : Nat) : Word := if m.fieldOn f then (m.field f).pwrCtrl else m.reg (fpCeil f).off
def Mod.vampCtrl (m : Mod) (f : Nat) : Word := if m.fieldOn f then (m.field f).vampCtrl else m.reg (fvFrac f).off

/-- The registers taken into force (R352). -/
def Mod.takeCtrl (m : Mod) (f : Nat) : Mod :=
  m.setField f { m.field f with pwrCtrl := m.reg (fpCeil f).off, vampCtrl := m.reg (fvFrac f).off }

def Mod.opCeil (m : Mod) (f : Nat) : Nat := bits (m.pwrCtrl f) 31 29
def Mod.pLim (m : Mod) (f : Nat) : Nat := bits (m.pwrCtrl f) 28 20
def Mod.holdMax (m : Mod) (f : Nat) : Nat := bits (m.pwrCtrl f) 19 14
def Mod.vampFrac (m : Mod) (f : Nat) : Nat := bits (m.vampCtrl f) 23 16
def Mod.vampRamp (m : Mod) (f : Nat) : Nat := bits (m.vampCtrl f) 9 0

/-- The effective point of a field for a requested one (R343). -/
def Mod.effective (m : Mod) (f : Nat) : Nat := Nat.min (m.get (fsOpReq f)) (m.opCeil f)

/-- The field moved to its effective point, unless the hard threshold or a sensor fault keeps it on the fallback clock
(R343, R346). -/
def Mod.toEffective (m : Mod) (f : Nat) : Mod :=
  if m.isSet (fsHard f) || m.isSet (fsSensor f) || !m.fieldOn f then m
  else
    let e := m.effective f
    if e = m.get (fsOp f) then m else (m.put (fsOp f) e).requestSwitch f (opFreq e)

/-- A PWR_EVENTS bit set (Table 15-15), recorded where it was 0 (class 0x0A); HARD_LIMIT, HARD and TRIP assert ALERT_N
(R443). -/
def Mod.pwrSet (m : Mod) (k kind place : Nat) : Mod :=
  let m := if k = 1 ∨ k = 3 ∨ k = 4 then { m with alert := true } else m
  if m.isSet (pwEvent k) then m
  else (m.put (pwEvent k) 1).recordFree ⟨0, 10, kind, place, 8 * 256, 0, if kind = 5 then m.coOf place else none, k⟩

/-- Fields whose compute domain is on. -/
def Mod.onFields (m : Mod) : List Nat := allFields.filter m.fieldOn

/-- P_EFF, kept at or below every such field's own limit (R338). -/
def Mod.setPEff (m : Mod) (p : Nat) : Mod :=
  let top := (m.onFields.map m.pLim).foldl Nat.min 390
  let p := Nat.min p top
  { m with pEff := p }.put psLimiting (ofBool (decide (p < 390)))

/-- P_EFF after a field's limit has changed, or a field has come on. -/
def Mod.capPEff (m : Mod) : Mod := m.setPEff m.pEff

/-- A company's preferred point of a scene (R342). -/
def Mod.oppOf (m : Mod) (c scene : Nat) : Nat := bits (m.reg (coBase c + 0x300 + scene / 16 * 8)) (scene % 16 * 4 + 3) (scene % 16 * 4)

/-- A scene installed in a field: its requested point (R343). -/
def Mod.scenePoint (m : Mod) (c f scene : Nat) : Mod := (m.put (fsOpReq f) (m.oppOf c scene)).toEffective f

/-- A request to the power sequencer: fields to power up or down (R341). -/
def Mod.requestPower (m : Mod) (on : Bool) (fs : List Nat) : Mod :=
  if fs.isEmpty then m else { m with power := m.power ++ [(on, fs)] }

/-- The compute domains that are on, in PWR_STAT (Table 15-13). -/
def Mod.countOn (m : Mod) : Mod := m.put psFieldsOn ((allFields.filter m.fieldOn).length)

end Sys2Proof.Machine
end

