-- ==== Sys2Proof/Machine/Scenes.lean ====
section
/-! DEFINITION. Steps and encores (R370 to R378) and scene changes (R168 to R174, R301). -/

namespace Sys2Proof.Machine

/-! Rigging plans in the scene store (R165, R185, R220). -/

/-- The plan and aside map of a cell that takes no part (R165, R296). -/
def inactivePlan (scene : Nat) : List Byte :=
  toLe 0xA6E7 2 ++ toLe scene 1 ++ ([0] : List Byte) ++ toLe (crc32 (List.replicate 2040 0)).toNat 4 ++ List.replicate 2072 0

/-- Plans 256 and above are those relocated against the encore field (R374). -/
def planKey (scene f l : Nat) : Nat := (scene * 72 + f) * 384 + l

def Mod.plan (m : Mod) (scene f l : Nat) : List Byte := mget (inactivePlan (scene % 256)) m.plans (planKey scene f l)

def Mod.setPlan (m : Mod) (scene f l : Nat) (b : List Byte) : Mod :=
  { m with plans := mset (inactivePlan (scene % 256)) m.plans (planKey scene f l) b }

/-- A plan bank holding a plan. -/
def bankOf (b : List Byte) : Memory := writeBytes [] 0 b

/-- The job cells of a production's scenes: their ENTRY (R294). -/
def Mod.entryOf (m : Mod) (c scene : Nat) : Nat :=
  match (m.co c).prod with
  | some p => ((p.scenes[scene]?).map (·.2)).getD 0
  | none => 0

def Mod.isInterval (m : Mod) (c scene : Nat) : Bool :=
  match (m.co c).prod with
  | some p => ((p.scenes[scene]?).map (·.1)).getD false
  | none => false

/-- The TARGET's plans written into every staged bank of the company (R168). -/
def Mod.stagePlans (m : Mod) (c scene : Nat) : Mod :=
  m.each (m.coCells c) (fun m p => m.modCell p.1 p.2 (fun x => { x with rig := { x.rig with staged := bankOf (m.plan scene p.1 p.2) } }))

/-- A cell's installation (R172, R224): the banks change places, the node is emptied, aside queues that the new scene
disables are emptied; how many messages that dropped. -/
def Cell.install (c : Cell) : Cell × Nat :=
  let g := c.rig.install
  let off := (List.range 8).filter (fun ch => !asideInOn g ch)
  let n := (off.map (fun ch => (c.asideQueue ch).lens.length)).foldl (· + ·) 0
  let c := { c with rig := g }
  (off.foldl (fun c ch => c.setAsideQ ch .zero) c, n)

/-- A field's installation of a scene from the plans kept under a number (R157, R172, R343). `staged`: the staged banks already
hold it. -/
def Mod.installFrom (m : Mod) (c f scene plans : Nat) (staged : Bool) : Mod :=
  let ls := (List.range 384).filter (m.cellOk f)
  let m := m.each ls (fun m l =>
    let x := m.cell f l
    let x := if staged then x else { x with rig := { x.rig with staged := bankOf (m.plan plans f l) } }
    let r := x.install
    (m.setCell f l r.1).addSat (swDropped c) r.2)
  let m := m.setField f { m.field f with slot := 0 }
  m.scenePoint c f scene

def Mod.installField (m : Mod) (c f scene : Nat) (staged : Bool) : Mod := m.installFrom c f scene scene staged

/-- What an installation leaves in SCENE_STAT (R172): STAGED names the scene installed before. -/
def Mod.installed (m : Mod) (c scene : Nat) : Mod :=
  let m := (m.put (scStaged c) (m.get (scCurrent c))).put (scStagedValid c) (ofBool (m.co c).installed)
  (m.put (scCurrent c) scene).modCo c (fun x => { x with installed := true })

/-- The SCENE CSR of every cell of the company (R172). -/
def Mod.sceneCsr (m : Mod) (c scene : Nat) : Mod :=
  m.eachCell (m.coCells c) (fun x => { x with sc := { x.sc with scene := scene } })

/-- Whether the staged banks hold a scene (R168). -/
def Mod.holdsStaged (m : Mod) (c scene : Nat) : Bool := m.isSet (scStagedValid c) && decide (m.get (scStaged c) = scene)

/-! Steps (R370 to R373). -/

/-- A step begun at a scene. -/
def Mod.stepBegin (m : Mod) (c s0 n : Nat) : Mod :=
  let m := m.modCo c (fun x => { x with job := x.job.map (fun j => { j with
    s0 := s0, range := none, tripped := [], why := [] }) })
  let m := ((m.put (esSuspect c) 0).put (esStep c) n)
  m.put (esWhy c) (m.stepWhy c)

/-- One record for an encore or a step committed unverified (R377, class 0x06). -/
def Mod.encoreRecord (m : Mod) (c outcome : Nat) : Mod :=
  let partner := if m.get (encMode c) = 2 then m.get (encPartner c) else 0xFFF
  m.recordFree ⟨0, 6, 6, 0, 8 * 256, 0, some c, outcome + m.get (esWhy c) * 2 ^ 8 +
    (m.co c).enc.trips % 65536 * 2 ^ 16 + m.get (esStep c) * 2 ^ 32 + partner * 2 ^ 64⟩

/-- The mode's conditions that this device can see (R374): one field's cells, FE in the rectangle and the same field row
with none of them, no row out that the job's field has, room for the output. -/
def Mod.fieldModeOk (m : Mod) (c : Nat) : Bool :=
  match (m.co c).prod with
  | none => false
  | some p =>
    let fe := m.get (encField c)
    let f0 := (p.cells.head?).elim 72 (·.1)
    decide (p.gx ≤ 24 ∧ p.gy ≤ 16) && p.cells.all (fun q => decide (q.1 = f0)) && decide (f0 ≠ fe) &&
      shas (m.coFields c) fe && decide (fe / 9 = f0 / 9) &&
      (List.range 16).all (fun r => !m.rowOut fe r || m.rowOut f0 r) &&
      decide ((m.coFields c).length * ((m.outRange c).getD (0, 0)).2 ≤ m.stagingBytes c)

/-- The reason the step cannot be replayed at its end, 0 for none (R372). -/
def Mod.endWhy (m : Mod) (c : Nat) : Nat :=
  let w := m.stepWhy c
  if w ≠ 0 then w else if m.get (encMode c) = 1 ∧ m.fieldModeOk c = false then 6 else 0

/-- The digest of a result (R376): over the digests of its slots; each slot's bytes from where `at_` says. -/
def Mod.digest (m : Mod) (c : Nat) (at_ : Nat → Nat) (n : Nat) : List Byte :=
  sha384 ((List.range (m.coFields c).length).flatMap (fun k => sha384 (readBytes m.strat (at_ k) n)))

/-- The key of a byte of a field slot in the stratum. -/
def stratKeyOf (f r : Nat) : Nat := f * 2 ^ 35 + r

def Mod.slotField (m : Mod) (c k : Nat) : Nat := ((m.coFields c)[k]?).getD 72

/-- Where slot k's output range lies, and where its replay's lies in the staging area (R374). -/
def Mod.ownAt (m : Mod) (c k : Nat) : Nat := stratKeyOf (m.slotField c k) ((m.outRange c).getD (0, 0)).1

def Mod.replayAt (m : Mod) (c k : Nat) : Nat :=
  stratKeyOf (m.get (encField c)) (m.slotSize - m.storeBytes c - m.stagingBytes c + k * ((m.outRange c).getD (0, 0)).2)

def startCell (entry : Nat) (x : Cell) : Cell :=
  { x with sc := { x.sc with pc := entry, run := .running, asleep := 0, job := true, acked := false, ended := false, released := false } }

/-- A replay on the encore field begun (R374): S0 installed in FE alone, its scalar cores started. -/
def Mod.fieldReplay (m : Mod) (c s0 : Nat) : Mod :=
  let fe := m.get (encField c)
  let m := m.installFrom c fe s0 (256 + s0) false
  m.eachCell (m.feCells c) (startCell (m.entryOf c s0))

/-- An encore begun (R371, R374 to R376). -/
def Mod.encoreBegin (m : Mod) (c : Nat) (atEnd : Bool) : Mod :=
  match (m.co c).job with
  | none => m
  | some j =>
    let own := m.digest c (m.ownAt c) ((m.outRange c).getD (0, 0)).2
    let mode := m.get (encMode c)
    let m := m.modCo c (fun x => { x with enc := ⟨if mode = 1 then 2 else 1, own, [], 0, false, atEnd, false⟩, heldAt := false })
    if mode = 1 then (m.put (esReplaying c) 1).fieldReplay c j.s0 else m

/-! Boundaries (R301, R371). -/

/-- Whether an access of a job cell's core is still out (R29, R150). -/
def Mod.accessesOut (m : Mod) (c : Nat) : Bool := (m.prodCells c).any (fun p => !(m.cell p.1 p.2).sc.outst.isEmpty)

/-- Whether an interval ends the job and nothing is left to wait for (R29, R301). -/
def Mod.endsAtInterval (m : Mod) (c : Nat) : Bool :=
  match (m.co c).change with
  | some g => decide (g.phase = 6) && (m.co c).reset.isNone && !m.accessesOut c
  | none => false

/-- The end of a job at an interval (R301). -/
def Mod.intervalEnd (m : Mod) (c : Nat) : Mod :=
  match (m.co c).change with
  | some g => (m.dropChange c).endRun c 0x304 (BitVec.ofNat 64 g.target) false
  | none => m

/-- A step's commit at an interval (R301): the job ends there, once every access it issued has its reply (R29), or the scene is
installed and a step begins. -/
def Mod.intervalGo (m : Mod) (c : Nat) : Mod :=
  match (m.co c).change with
  | none => m
  | some g =>
    if g.stopAt || m.wanted c then
      let m := m.eachCell (m.prodCells c) (fun x => { x with sc := { x.sc with run := .stopped } })
      let n := m.rigTokens c
      let m := ((m.emptyRig c).put (scDiscarded c) (Nat.min n 0xFFFFFFFF)).put (scResult c) 7
      let m := m.modCo c (fun x => { x with change := some { g with phase := 6 } })
      if m.endsAtInterval c then m.intervalEnd c else m
    else
      let n := m.get (esStep c) + 1
      (m.modCo c (fun x => { x with change := some { g with phase := 3 } })).stepBegin c g.target n

/-- A result committed (R376, R377): the boundary goes on. A STOP MODE 0 that came during staging ends the job there (R371, Table
17-4). -/
def Mod.commit (m : Mod) (c : Nat) (atEnd : Bool) : Mod :=
  let stop := m.isSet (esStaging c) && m.isSet (stopPending c)
  let m := (((m.addSat (jrSteps c) 1).put (esStaging c) 0).put (esReplaying c) 0).put (esSuspect c) 0
  let m := m.modCo c (fun x => { x with
    enc := .zero, heldAt := false, change := x.change.map (fun g => { g with stopAt := g.stopAt || (stop && decide (g.phase = 5)) }) })
  if atEnd then m.jobEnds c else m.intervalGo c

def Mod.commitUnverified (m : Mod) (c : Nat) (atEnd : Bool) : Mod :=
  (((m.put (esOutcome c) 4).addSat (jrUnverified c) 1).encoreRecord c 4).commit c atEnd

/-- A step's end boundary (R371, R372): committed, or held in staging while an encore runs. -/
def Mod.boundary (m : Mod) (c : Nat) (atEnd : Bool) : Mod :=
  if m.isSet (esSuspect c) then
    let m := (m.addSat (jrSuspect c) 1).put (esWhy c) (m.endWhy c)
    if m.get (esWhy c) ≠ 0 then m.commitUnverified c atEnd
    else
      let m := m.put (esStaging c) 1
      let m := m.modCo c (fun x => { x with enc := { x.enc with atEnd := atEnd }, change := x.change.map (fun g => if g.phase = 0 then g else { g with phase := 5 }) })
      if m.coState c = stHeld then m.modCo c (fun x => { x with heldAt := true }) else m.encoreBegin c atEnd
  else (m.put (esOutcome c) 1).commit c atEnd

/-! Scene changes (R168 to R172). -/

/-- Whether a production declares a scene. -/
def Mod.hasScene (m : Mod) (c s : Nat) : Bool :=
  match (m.co c).prod with
  | some p => decide (s < p.scenes.length)
  | none => false

/-- The decision of R168 below BUSY: 6 no production loaded, 5 bad scene, 6 no job for a GO; 0 accepted. -/
def Mod.sceneDecision (m : Mod) (c target : Nat) (go : Bool) : Nat :=
  let st := m.coState c
  if st = stEmpty ∨ st = stLoading ∨ st = stUnloading then 6
  else if !m.hasScene c target then 5
  else if go && decide (st = stLoaded) then 6
  else 0

/-- A scene change begun (R168): its fields stored, BUSY set. A SCENEACK that the change before released still ends by it. -/
def Mod.sceneBegin (m : Mod) (c target : Nat) (forced : Bool) (strike ack : Nat) (cue : Option Nat) (go : Bool) : Mod :=
  let m := (((m.put (scTarget c) target).put (scForced c) (ofBool forced)).put (scStrikeUs c) strike).put (scAckMs c) ack
  let m := m.put (scBusy c) 1
  let m := if go then m.eachCell (m.prodCells c) (fun x => { x with sc := { x.sc with acked := false } })
    else m.put (scStagedValid c) 0
  m.modCo c (fun x => { x with change := some ⟨target, forced, false, cue, if go then 1 else 0, [], [], false, false⟩ })

/-- Conditions 2 to 4 of R150 in a cell (R301). -/
def cellDrained (x : Cell) : Bool :=
  (List.range 6).all (fun u => matrixDrained (x.mat u)) && !x.vec.running && x.fly.transfers.isEmpty

def acknowledged (x : Cell) : Bool := x.sc.acked || x.sc.ended

/-- The first cell, lowest field and then lowest logical cell, of a list of cells. -/
def firstCell (l : List (Nat × Nat)) : Option (Nat × Nat) :=
  l.foldl (fun a p =>
    match a with
    | none => some p
    | some q => if p.1 < q.1 ∨ (p.1 = q.1 ∧ p.2 < q.2) then some p else some q) none

def Mod.sceneWhere (m : Mod) (c : Nat) (p : Nat × Nat) : Mod := (m.put (swField c) p.1).put (swLcell c) p.2

/-- A strike's end (R171, R301, R371): an interval reached, or installation follows. -/
def Mod.strikeDone (m : Mod) (c : Nat) : Mod :=
  match (m.co c).change with
  | none => m
  | some g =>
    if m.isInterval c g.target then
      let m := (((m.put (lastInterval c) g.target).put (intervalValid c) 1).event c evInterval)
      m.boundary c false
    else m.modCo c (fun x => { x with change := some { g with phase := 3 } })

/-- A forced strike (R171): every token of the company discarded and counted. -/
def Mod.forcedStrike (m : Mod) (c : Nat) : Mod :=
  let holders := (m.coCells c).filter (fun p => decide (0 < (m.cell p.1 p.2).rig.tokens))
  let n := m.rigTokens c
  let m := match firstCell holders with | some p => m.sceneWhere c p | none => m
  ((m.emptyRig c).put (scDiscarded c) (Nat.min n 0xFFFFFFFF)).strikeDone c

/-- The strike begun (R171). -/
def Mod.strikeBegin (m : Mod) (c : Nat) : Mod :=
  match (m.co c).change with
  | none => m
  | some g =>
    let m := m.modCo c (fun x => { x with change := some { g with phase := 2, stopAt := m.isSet (stopPending c) } })
    if g.forced then m.forcedStrike c else m

/-- The change goes on once the last job cell has acknowledged and, before an interval, has drained (R169, R171, R301);
not where every job cell has ended, which ends the job (R174). -/
def Mod.sceneProgress (m : Mod) (c : Nat) : Mod :=
  match (m.co c).change with
  | none => m
  | some g =>
    let cells := m.prodCells c
    if g.phase = 1 && (m.coFields c).all (shas g.asked) && cells.all (fun p => acknowledged (m.cell p.1 p.2)) &&
        !m.allEnded c && (!m.isInterval c g.target || cells.all (fun p => cellDrained (m.cell p.1 p.2))) then
      m.strikeBegin c
    else m

/-- The request set in a field's job cells (R169), where the change begins: both gather buffers are flushed (R52); a
SCENEACK that waits for it acknowledges. -/
def requestCell (x : Cell) : Cell :=
  let x := x.flushGather.flushAside
  let x := { x with sc := setEvent x.sc 24 }
  if x.sc.run = .waiting ∧ x.sc.asleep = 0x110 ∧ x.sc.released = false then { x with sc := { x.sc with acked := true } } else x

def Mod.sceneRequest (m : Mod) (c f : Nat) : Mod :=
  match (m.co c).change with
  | none => m
  | some g =>
    if g.phase = 1 ∧ shas (m.coFields c) f = true ∧ shas g.asked f = false then
      let m := m.each ((m.prodCells c).filter (fun p => decide (p.1 = f))) (fun m p => m.tellCell p.1 p.2 opStage requestCell)
      (m.modCo c (fun x => { x with change := some { g with asked := sadd g.asked f } })).sceneProgress c
    else m

/-- Whether an aside or a refusal of the company is still under way (R224). -/
def Mod.asidesFly (m : Mod) (c : Nat) : Bool :=
  m.routers.any (fun e => e.2.any (fun p => decide (p.co = c) &&
    (match p.body with | .aside _ _ _ _ _ _ _ _ => true | .refusal _ _ => true | _ => false))) ||
    (m.coCells c).any (fun p => !(m.cell p.1 p.2).asides.isEmpty || !(m.cell p.1 p.2).refusals.isEmpty)

/-- The first field's installation decides whether the staged banks serve; until the last, no bank holds a whole scene (R172; log
entry 46). -/
def Mod.installBegin (m : Mod) (c : Nat) (g : SceneChange) : SceneChange × Mod :=
  if g.done.isEmpty then ({ g with useStaged := m.holdsStaged c g.target }, (m.put (swDropped c) 0).put (scStagedValid c) 0)
  else (g, m)

/-- A field's installation in a scene change (R172). -/
def Mod.sceneInstall (m : Mod) (c f : Nat) : Mod :=
  match (m.co c).change with
  | none => m
  | some g =>
    if g.phase = 3 && shas (m.coFields c) f && !shas g.done f && !m.asidesFly c then
      let b := m.installBegin c g
      let m := b.2.installField c f g.target b.1.useStaged
      let done := sadd g.done f
      let last := (m.coFields c).all (shas done)
      let m := if last then m.installed c g.target else m
      m.modCo c (fun x => { x with change := some { b.1 with done := done, phase := if last then 4 else 3 } })
    else m

/-- The RESULT of a change that was made (Table 07-10). -/
def sceneResult (g : SceneChange) : Nat := if g.timedOut then 2 else if g.forced then 3 else 1

/-- The release of every field into the new scene (R172); it waits while the job is held, which writes no completion (R273, R302). -/
def Mod.sceneRelease (m : Mod) (c : Nat) : Mod :=
  match (m.co c).change with
  | none => m
  | some g =>
    if g.phase = 4 ∧ m.coState c ≠ stHeld then
      let r := sceneResult g
      let m := m.sceneCsr c g.target
      let m := m.eachCell (m.prodCells c) (fun x => { x with sc := { x.sc with released := x.sc.acked } })
      let m := ((m.put (scResult c) r).put (scBusy c) 0).modCo c (fun x => { x with change := none })
      match g.cue with
      | some k => m.doneCue c k (if r = 1 then 0 else 0x500 + r) (m.infoScene c)
      | none => m
    else m

/-- A staging's end (R168). -/
def Mod.stagingDone (m : Mod) (c : Nat) : Mod :=
  match (m.co c).change with
  | none => m
  | some g =>
    if g.phase = 0 then
      let m := (m.stagePlans c g.target).modCo c (fun x => { x with change := none })
      ((m.put (scStaged c) g.target).put (scStagedValid c) 1).put (scBusy c) 0
    else m

/-- Whether a job cell still holds the change up at its limit (R170, R301). -/
def Mod.ackLate (m : Mod) (c : Nat) (g : SceneChange) : Option (Nat × Nat) :=
  let cells := m.prodCells c
  let late := cells.filter (fun p => !acknowledged (m.cell p.1 p.2))
  let busy := if m.isInterval c g.target then cells.filter (fun p => !cellDrained (m.cell p.1 p.2)) else []
  (firstCell late).orElse (fun _ => firstCell busy)

/-- The acknowledgement limit (R170). -/
def Mod.ackTimeout (m : Mod) (c : Nat) : Mod :=
  match (m.co c).change with
  | none => m
  | some g =>
    match if g.phase = 1 ∧ m.coState c = stRunning then m.ackLate c g else none with
    | none => m
    | some p =>
      let m := (m.put (scResult c) 4).sceneWhere c p
      let m := ((m.put (scBusy c) 0).modCo c (fun x => { x with change := none }))
      let m := match g.cue with | some k => m.doneCue c k 0x504 (m.infoScene c) | none => m
      m.stopJob c 0x303 (BitVec.ofNat 64 (infoCell p.1 p.2)) false

end Sys2Proof.Machine
end

