-- ==== Sys2Proof/Machine/Channel.lean ====
section
/-! DEFINITION. The stratum's channels (R178 to R195): bursts, requests served, states of a field's stratum, ledger additions
owed for rows written (R265). -/

namespace Sys2Proof.Machine

/-! STRAT_FIELD.STATE (Table 08-4). -/
def ssOff : Nat := 0
def ssTraining : Nat := 1
def ssFilling : Nat := 2
def ssReady : Nat := 3
def ssSelf : Nat := 4
def ssFault : Nat := 5

def Mod.stratState (m : Mod) (f : Nat) : Nat := m.get (sfState f)

/-- Check 5 for a field's stratum (R189). -/
def Mod.stratReady (m : Mod) (f : Nat) : Bool := decide (m.stratState f = ssReady)

def chanKey (f ch : Nat) : Nat := f * 16 + ch

def Mod.chan (m : Mod) (f ch : Nat) : Chan := mget .zero m.chans (chanKey f ch)

def Mod.setChan (m : Mod) (f ch : Nat) (x : Chan) : Mod := { m with chans := mset .zero m.chans (chanKey f ch) x }

/-- The channel of a byte of the stratum by its key. -/
def Mod.keyChan (m : Mod) (k : Nat) : Nat := chanKey (k / 2 ^ 35) (m.chanOf (k % 2 ^ 35))

/-! Bursts. -/

/-- The bursts of `n` bytes from a key. -/
def burstsOf (k n : Nat) : List Nat := if n = 0 then [] else (List.range ((k + n - 1) / 64 + 1 - k / 64)).map (· + k / 64)

/-- A burst of a channel whose contents are unknown, read or partly written for the first time: eight free words (Table 08-4;
log entry 2). -/
def Mod.knowBurst (m : Mod) (b : Nat) : Mod :=
  if shas m.stratOpen (m.keyChan (b * 64)) && !shas m.stratKnown b then
    let m := { m with stratKnown := sadd m.stratKnown b }
    m.each (List.range 8) (fun m i =>
      let d := m.draw
      { d.2 with strat := writeBytes d.2.strat (b * 64 + 8 * i) (toLe d.1.toNat 8) })
  else m

def Mod.know (m : Mod) (k n : Nat) : Mod := if m.stratOpen.isEmpty then m else m.each (burstsOf k n) Mod.knowBurst

/-- WHERE of a burst (Table 17-6). -/
def Mod.whereBurst (m : Mod) (b : Nat) : Nat :=
  let r := b * 64 % 2 ^ 35
  let p := m.chanByte r
  b * 64 / 2 ^ 35 + m.chanOf r * 2 ^ 7 + p.1 * 2 ^ 11 + p.2 * 2 ^ 16

/-- What a burst's read tells (R190, R191, Table 17-1): a corrected one waits for its write-back. -/
def Mod.touchBurst (m : Mod) (opn code co b : Nat) : Mod :=
  let ck := m.keyChan (b * 64)
  let f := ck / 16
  let ch := ck % 16
  if shas m.stratBad b then
    let d := m.draw
    (d.2.count 7 4 f 0 ch 1).record ⟨3, 2, 2, m.whereBurst b, opn, code, if co < 16 then some co else none, d.1.toNat⟩
  else if shas m.stratLatent b then
    let d := m.draw
    let m := (d.2.count 7 3 f 0 ch 1).record ⟨1, 1, 2, m.whereBurst b, opn, 0, if co < 16 then some co else none, d.1.toNat⟩
    let x := m.chan f ch
    m.setChan f ch { x with wbacks := sadd x.wbacks b }
  else m

/-- A burst written: pending corrections of it are cancelled, and its contents are known (R190). -/
def Mod.freshBurst (m : Mod) (b : Nat) : Mod :=
  let ck := m.keyChan (b * 64)
  let x := m.chan (ck / 16) (ck % 16)
  let m := { m with stratLatent := sdel m.stratLatent b, stratKnown := if m.stratOpen.isEmpty then m.stratKnown else sadd m.stratKnown b }
  m.setChan (ck / 16) (ck % 16) { x with wbacks := sdel x.wbacks b }

/-- The part of a burst that a write of `n` bytes from key `k` covers: its first key and its length. -/
def burstPart (k n b : Nat) : Nat × Nat := (Nat.max k (b * 64), Nat.min (k + n) (b * 64 + 64) - Nat.max k (b * 64))

/-- A part of a burst merged into it, once the burst has been read (R186, R191): not performed on a poisoned burst. Whether it was
performed. -/
def Mod.mergeBurst (m : Mod) (k : Nat) (bs : List Byte) (bad : List Nat) (b : Nat) : Mod × Bool :=
  let p := burstPart k bs.length b
  let ck := m.keyChan (b * 64)
  if shas m.stratBad b then (m, false)
  else
    let m := { m.freshBurst b with strat := writeBytes m.strat p.1 ((bs.drop (p.1 - k)).take p.2) }
    let badHere := bad.any (fun w => decide ((k + 8 * w) / 64 = b))
    ({ m with stratBad := if badHere then sadd m.stratBad b else m.stratBad }.count 7 2 (ck / 16) 0 (ck % 16) 1, true)

/-- One burst of a write (R186, R191): a whole burst is written with fresh check bits, poisoned where the data is; a part is read, then
merges. Whether it was performed. -/
def Mod.writeBurst (m : Mod) (k : Nat) (bs : List Byte) (bad : List Nat) (opn co b : Nat) : Mod × Bool :=
  let p := burstPart k bs.length b
  let badHere := bad.any (fun w => decide ((k + 8 * w) / 64 = b))
  let ck := m.keyChan (b * 64)
  if p.2 = 64 then
    let m := { m.freshBurst b with strat := writeBytes m.strat p.1 ((bs.drop (p.1 - k)).take p.2) }
    ({ m with stratBad := if badHere then sadd m.stratBad b else sdel m.stratBad b }.count 7 2 (ck / 16) 0 (ck % 16) 1, true)
  else (((m.knowBurst b).touchBurst opn 5 co b).count 7 1 (ck / 16) 0 (ck % 16) 1).mergeBurst k bs bad b

/-- A write of bytes from a key, burst by burst; whether every burst was performed. -/
def Mod.stratWrite (m : Mod) (k : Nat) (bs : List Byte) (bad : List Nat) (opn co : Nat) : Mod × Bool :=
  (burstsOf k bs.length).foldl (fun r b => let q := r.1.writeBurst k bs bad opn co b; (q.1, r.2 && q.2)) (m, true)

/-- A read of `n` bytes from a key: the bytes and the poisoned 8-byte words among them (R191). -/
def Mod.stratRead (m : Mod) (k n opn code co : Nat) : Mod × List Byte × List Nat :=
  let m := m.each (burstsOf k n) (fun m b =>
    let ck := m.keyChan (b * 64)
    ((m.knowBurst b).touchBurst opn code co b).count 7 1 (ck / 16) 0 (ck % 16) 1)
  (m, readBytes m.strat k n, (List.range (n / 8)).filter (fun w => shas m.stratBad ((k + 8 * w) / 64)))

/-! Requests (R180, R187, R188, R191). -/

/-- OPERATION of a request (Table 17-6). -/
def reqOpn (r : Req) : Nat :=
  match r.owner, r.op with
  | .scalar _ _ _, .load => 0x11C
  | .scalar _ _ _, .store _ => 0x11D
  | .scalar _ _ _, _ => 0x11E
  | .fly _ _ _, _ => 0x400
  | .remote _ _ _ _, .read _ => 0x601
  | .remote _ _ _ _, .atomic _ _ _ => 0x603
  | .remote _ _ _ _, _ => 0x602

/-- Rows of a write that add to a ledger (R265). -/
def ledgerRows (r : Req) : Nat :=
  match r.op with
  | .write bs _ => ceilDiv bs.length 64
  | _ => 0

def Mod.addLedger (m : Mod) (co l n : Nat) : Mod :=
  let k := co * 4096 + l
  { m with ledAdds := mset 0 m.ledAdds k (mget 0 m.ledAdds k + n) }

/-- The ledger additions a served request owes: those of another device's packets. -/
def Mod.owedLedger (m : Mod) (r : Req) : Mod :=
  match r.owner, r.ledger with
  | .remote _ _ _ _, some l => m.addLedger r.co l (ledgerRows r)
  | _, _ => m

/-- A request performed at its bursts: status, data, poisoned words. -/
def Mod.serveStrat (m : Mod) (r : Req) : Mod × Nat × List Byte × List Nat :=
  let p := m.stratPlace r.co (faOff r.addr)
  let k := stratKeyOf p.1 p.2
  let opn := reqOpn r
  match r.op with
  | .load =>
    let q := m.stratRead k 8 opn 5 r.co
    if q.2.2.isEmpty then (q.1, 0, q.2.1, []) else (q.1, 5, [], [])
  | .store v => let q := m.stratWrite k (toLe v.toNat 8) [] opn r.co; (q.1, if q.2 then 0 else 5, [], [])
  | .atomic op v cmp =>
    let q := m.stratRead k 8 opn 5 r.co
    if q.2.2.isEmpty then
      let old := BitVec.ofNat 64 (ofLe q.2.1)
      match atomicNew op old v cmp with
      | some w => ((q.1.mergeBurst k (toLe w.toNat 8) [] (k / 64)).1, 0, toLe old.toNat 8, [])
      | none => (q.1, 0, toLe old.toNat 8, [])
    else (q.1, 5, [], [])
  | .read n => let q := m.stratRead k n opn 3 r.co; (q.1, 0, q.2.1, q.2.2)
  | .write bs bad => let q := m.stratWrite k bs bad opn r.co; (q.1, if q.2 then 0 else 5, [], [])

/-- Whether a request of an engine of this device carries an old company generation (R401). -/
def Mod.staleReq (m : Mod) (r : Req) : Bool :=
  match r.owner with
  | .remote _ _ _ _ => false
  | _ => decide (r.gens.cgen ≠ m.get (gsCgen r.co))

def Mod.countStale (m : Mod) (co : Option Nat) : Mod :=
  match co with
  | some c => m.addSat (gsStale c) 1
  | none => m.addSat rtStale 1

/-- A request's bank and row (R180). -/
def Mod.bankRowOf (m : Mod) (f ch : Nat) (r : Req) : Nat × Nat :=
  let p := m.chanByte (m.stratPlace r.co (faOff r.addr)).2
  Config.bankRow (((f * 16 + ch) * 2 + p.1) * 2 ^ 30 + p.2)

/-- Whether two requests touch one burst. -/
def sameBurst (a b : Req) : Bool :=
  decide (a.co = b.co ∧ faOff a.addr / 64 * 64 < faOff b.addr + opBytes b.op ∧ faOff b.addr / 64 * 64 < faOff a.addr + opBytes a.op)

/-- Whose order of accesses a channel keeps (R187): an engine of this device, or a device. -/
def requester (o : Owner) : Nat × Nat × Nat :=
  match o with
  | .scalar f l _ => (0, f, l)
  | .fly f l _ => (1, f, l)
  | .remote d _ _ _ => (2, d, 0)

/-- Whether the i-th request may be served before the earlier ones (R187). -/
def freeOf (q : List ChanReq) (i : Nat) : Bool :=
  match q[i]? with
  | none => false
  | some x => (q.take i).all (fun y => !(decide (requester y.req.owner = requester x.req.owner) && sameBurst y.req x.req))

/-- The request served next (R180): of those that have waited 1 us the oldest, else the oldest with an open row, else the
oldest. -/
def Mod.pickChan (m : Mod) (f ch aged : Nat) : Nat :=
  let x := m.chan f ch
  if 0 < aged then 0
  else
    ((List.range x.queue.length).find? (fun i =>
      match x.queue[i]? with
      | some y => let b := m.bankRowOf f ch y.req; decide (mget 0 x.rows b.1 = b.2 + 1) && freeOf x.queue i
      | none => false)).getD 0

/-- A channel no longer hot (R195). -/
def Mod.coolChan (m : Mod) (f ch : Nat) : Mod :=
  if (m.chan f ch).queue.length < m.get stHotMark / 2 then m.put (sfHot f ch) 0 else m

/-- STRAT_CTRL's write: every channel's HOT by the mark it sets (R195). -/
def Mod.stratCtrl (m : Mod) (v : Word) : Mod :=
  (m.plainWrite 0x200008 v).each (allFields.flatMap (fun f => (List.range 16).map (fun ch => (f, ch)))) (fun m p =>
    if m.get stHotMark ≤ (m.chan p.1 p.2).queue.length then m.put (sfHot p.1 p.2) 1 else m.coolChan p.1 p.2)

/-- A request put in a channel's queue (R195). -/
def Mod.enqueue (m : Mod) (f ch : Nat) (q : ChanReq) : Mod :=
  let x := m.chan f ch
  let m := m.setChan f ch { x with queue := x.queue ++ [q] }
  if m.get stHotMark ≤ (m.chan f ch).queue.length then m.put (sfHot f ch) 1 else m

/-- STRATUM_REQUEST (R180). -/
def Mod.stratumRequest (m : Mod) (f ch aged : Nat) : Mod :=
  let x := m.chan f ch
  let i := m.pickChan f ch aged
  match x.queue[i]? with
  | none => m
  | some q =>
    let b := m.bankRowOf f ch q.req
    let m := (m.setChan f ch { x with queue := x.queue.eraseIdx i, rows := mset 0 x.rows b.1 (b.2 + 1) }).coolChan f ch
    if m.staleReq q.req then m.countStale (some q.req.co)
    else if !m.stratReady f then m.answer q.mx q.my (statusReply q.req 4) q.req.co
    else
      let a := m.serveStrat q.req
      (if a.2.1 = 0 then a.1.owedLedger q.req else a.1).answer q.mx q.my ⟨q.req.owner, a.2.1, a.2.2.1, a.2.2.2, q.req.gens⟩ q.req.co

/-- A bank's row closed (R180). -/
def Mod.rowClose (m : Mod) (f ch bank : Nat) : Mod :=
  let x := m.chan f ch
  m.setChan f ch { x with rows := merase x.rows bank }

/-- A corrected burst written back (R190). -/
def Mod.stratWriteBack (m : Mod) (f ch i : Nat) : Mod :=
  let x := m.chan f ch
  match x.wbacks[i]? with
  | none => m
  | some b => { m with stratLatent := sdel m.stratLatent b }.setChan f ch { x with wbacks := sdel x.wbacks b }

/-- A burst read by the scrub (R192). -/
def Mod.stratScrub (m : Mod) (f ch layer burst : Nat) : Mod :=
  if m.isSet stScrubEn && m.stratReady f && decide (layer < m.layers) then
    ((m.count 7 5 f 0 ch 1).touchBurst 0x800 0 16 (stratKeyOf f (m.slotByte ch layer (burst * 64)) / 64))
  else m

/-! States (R189, R193, R194, Table 08-4). -/

def Mod.setStrat (m : Mod) (f s : Nat) : Mod := m.put (sfState f) s

/-- A field's stratum zeroed with fresh check bits (R193). -/
def Mod.zeroStrat (m : Mod) (f : Nat) : Mod :=
  let a := f * 2 ^ 29
  let m := { m with
    strat := zeroBytes m.strat (f * 2 ^ 35) (2 ^ 35), stratBad := sdelRange m.stratBad a (2 ^ 29)
    stratLatent := sdelRange m.stratLatent a (2 ^ 29), stratKnown := sdelRange m.stratKnown a (2 ^ 29)
    stratOpen := sdelRange m.stratOpen (f * 16) 16, stratLost := sdel m.stratLost f }
  m.each (List.range 16) (fun m ch => m.setChan f ch { m.chan f ch with wbacks := [] })

/-- A field's stratum turned off: its contents are lost (R22). -/
def Mod.stratOff (m : Mod) (f : Nat) : Mod := (m.zeroStrat f).setStrat f ssOff

/-- A field's stratum domain powered up: the event counters of its channels start at zero (R419, R424). -/
def Mod.stratUp (m : Mod) (f : Nat) : Mod :=
  let m := m.setField f { m.field f with stratUps := (m.field f).stratUps + 1 }
  { m with ctr := m.ctr.filter (fun e => !decide (e.1 / 64 / 512 % 128 = f ∧ e.1 / 64 / 512 / 128 / 256 = 7)) }

/-- A field's stratum put into training; from off its domain powers up, and it will be zero-filled (R194). -/
def Mod.stratTrain (m : Mod) (f : Nat) : Mod :=
  let m := if m.stratState f = ssOff then { m.stratUp f with stratLost := sadd m.stratLost f } else m
  m.setStrat f ssTraining

/-- A field's stratum into self-refresh: contents kept; one in the fault state turns off (R406, Table 08-4). -/
def Mod.stratSelf (m : Mod) (f : Nat) : Mod :=
  if m.stratState f = ssReady ∨ m.stratState f = ssTraining then m.setStrat f ssSelf
  else if m.stratState f = ssFilling then ({ m with stratLost := sadd m.stratLost f }).setStrat f ssSelf
  else if m.stratState f = ssFault then m.stratOff f
  else m

/-- A field's stratum to be zero-filled (R194): now where it is ready, else once it has trained. -/
def Mod.stratFill (m : Mod) (f : Nat) : Mod :=
  if m.stratReady f then m.setStrat f ssFilling
  else if m.stratState f = ssFilling then m
  else { m with stratLost := sadd m.stratLost f }

/-- Stratum bytes of a field slot zeroed with fresh check bits, by their first byte and their number, both multiples of 64 (R185). -/
def Mod.zeroSlot (m : Mod) (f at_ n : Nat) : Mod :=
  let k := f * 2 ^ 35 + at_
  let m := { m with
    strat := zeroBytes m.strat k n, stratBad := sdelRange m.stratBad (k / 64) (n / 64)
    stratLatent := sdelRange m.stratLatent (k / 64) (n / 64)
    stratKnown := if m.stratOpen.isEmpty then m.stratKnown else (List.range (n / 64)).foldl (fun l i => sadd l (k / 64 + i)) m.stratKnown }
  m.each (List.range 16) (fun m ch =>
    let x := m.chan f ch
    m.setChan f ch { x with wbacks := sdelRange x.wbacks (k / 64) (n / 64) })

/-- Training's end (R189). -/
def Mod.trainingDone (m : Mod) (f : Nat) (ok : Bool) : Mod :=
  if m.stratState f = ssTraining then
    if !ok then m.setStrat f ssFault
    else if shas m.stratLost f then m.setStrat f ssFilling
    else m.setStrat f ssReady
  else m

/-- Zero-fill's end (R193). -/
def Mod.fillDone (m : Mod) (f : Nat) : Mod :=
  if m.stratState f = ssFilling then (m.zeroStrat f).setStrat f ssReady else m

/-- A channel lost (R189): its contents are unknown from then on. -/
def Mod.channelLost (m : Mod) (f ch : Nat) : Mod :=
  if m.stratState f = ssOff then m
  else
    let lost := { m with
      stratOpen := sadd m.stratOpen (chanKey f ch)
      stratKnown := m.stratKnown.filter (fun b => decide (m.keyChan (b * 64) ≠ chanKey f ch)) }
    lost.setStrat f ssFault

end Sys2Proof.Machine
end

