-- ==== Sys2Proof/Machine/CellRun.lean ====
section
/-! DEFINITION. A cell's step in the module: a scene change that waited for the cell goes on. -/

namespace Sys2Proof.Machine

/-- What a scene change waits for in a cell (R169, R301): its acknowledgement, and its engines drained. -/
def sceneState (x : Cell) : Bool × Bool := (acknowledged x, cellDrained x)

/-- A cell's step, and what it tells; a scene change that waited for the cell goes on. -/
def Mod.runCell (m : Mod) (f l opn : Nat) (g : Cell → Cell) : Mod :=
  let x0 := { m.cell f l with notes := [] }
  let x := g x0
  let m := m.tellCell f l opn g
  if sceneState x = sceneState x0 then m
  else
    match m.coOf f with
    | some c => m.sceneProgress c
    | none => m

/-- A scalar instruction of a cell: its engines run and its company's job is not held (R273). -/
def onScalar (s : State) (c : CellRef) (op : Nat) (g : Env → Cell → Cell) : Host.Outcome State Fault Refusal :=
  onField s c.field (fun m =>
    if m.cellRuns c.field c.lcell && !m.coHeld (m.coOf c.field) then
      m.runCell c.field c.lcell (opScalar op) (g (m.env c.field c.lcell))
    else m)

/-- A queued matrix command that begins: not while the company's job is held (R273). -/
def onMatrix (s : State) (c : CellRef) (opn : Nat) (g : Cell → Cell) : Host.Outcome State Fault Refusal :=
  onField s c.field (fun m =>
    if m.cellRuns c.field c.lcell && !m.coHeld (m.coOf c.field) then m.runCell c.field c.lcell opn g else m)

/-- A step of another unit of a cell, which a hold does not stop. -/
def onCell (s : State) (c : CellRef) (opn : Nat) (g : Env → Cell → Cell) : Host.Outcome State Fault Refusal :=
  onField s c.field (fun m =>
    if m.cellRuns c.field c.lcell then m.runCell c.field c.lcell opn (g (m.env c.field c.lcell)) else m)

end Sys2Proof.Machine
end

