-- ==== Sys2Proof/Machine/Shedin.lean ====
section
/-! DEFINITION. Shedin packets and links (R242 to R263, R401, R402): headers, links, flows, tags, routes, bounces. What a frame
cannot say of poisoned words it says in STATUS (log entry 16). -/

namespace Sys2Proof.Machine

/-! Headers (Table 11-3). -/
def fKind (fr : Frame) : Nat := bits fr.w0 63 60
def fEpoch (fr : Frame) : Bool := bit fr.w0 59
def fTc (fr : Frame) : Nat := bits fr.w0 58 58
def fHops (fr : Frame) : Nat := bits fr.w0 57 53
def fSize (fr : Frame) : Nat := bits fr.w0 52 46
def fDst (fr : Frame) : Nat := bits fr.w0 45 34
def fSrc (fr : Frame) : Nat := bits fr.w0 33 22
def fLedger (fr : Frame) : Bool := bit fr.w0 21
def fTag (fr : Frame) : Nat := bits fr.w0 17 0
def fSeq (fr : Frame) : Nat := bits fr.w1 63 48
def fAck (fr : Frame) : Nat := bits fr.w1 47 32
def fJob (fr : Frame) : Nat := bits fr.w1 31 16
def fDgen (fr : Frame) : Nat := bits fr.w1 15 8
def fStatus (fr : Frame) : Nat := bits fr.w1 7 0
def fSpace (fr : Frame) : Nat := bits fr.w2 63 60
def fOffset (fr : Frame) : Nat := bits fr.w2 59 12
def fLedgerId (fr : Frame) : Nat := bits fr.w2 11 0
def fLinkSeq (fr : Frame) : Nat := bits fr.w3 31 22
def fLinkAck (fr : Frame) : Nat := bits fr.w3 21 12
def fOp (fr : Frame) : Nat := bits fr.w3 11 9
def fCgen (fr : Frame) : Nat := bits fr.w3 8 1

def setW0 (fr : Frame) (hi lo v : Nat) : Frame := { fr with w0 := setBits fr.w0 hi lo v }
def setW1 (fr : Frame) (hi lo v : Nat) : Frame := { fr with w1 := setBits fr.w1 hi lo v }
def setW3 (fr : Frame) (hi lo v : Nat) : Frame := { fr with w3 := setBits fr.w3 hi lo v }

/-- The CRC of a frame: header bytes 0 to 27 and the payload (R245). -/
def frameCrc (fr : Frame) : Word32 := crc32 ((wordBytes [fr.w0, fr.w1, fr.w2, fr.w3]).take 28 ++ wordBytes fr.payload)

def isGroup (fr : Frame) : Bool := decide (10 ≤ fKind fr)
def isSequenced (fr : Frame) : Bool := decide (fKind fr ≠ 8 ∧ fKind fr < 10)

/-- A fabric status that Table 09-3 or Table 11-10 gives. -/
def statusOk (n : Nat) : Bool := decide (n ≤ 7 ∨ (0x10 ≤ n ∧ n ≤ 0x16))

/-- Whether a header is well-formed (R248): KIND, SIZE, SPACE, OP, STATUS and reserved bits. -/
def frameOk (fr : Frame) : Bool :=
  let k := fKind fr
  let n := fSize fr
  decide (1 ≤ k ∧ k ≤ 12 ∧ bits fr.w0 20 18 = 0 ∧ bits fr.w3 0 0 = 0 ∧ fSpace fr ≤ 1 ∧ fOp fr ≤ 5) && statusOk (fStatus fr) &&
    decide (n = if k = 1 then n else fr.payload.length) &&
    (match k with
     | 1 => decide (1 ≤ n ∧ n ≤ 64 ∧ fr.payload = [])
     | 2 => decide (1 ≤ n ∧ n ≤ 64)
     | 3 => decide (n = (if fOp fr = 5 then 2 else 1))
     | 4 => decide (1 ≤ n ∧ n ≤ 64)
     | 6 => decide (n = 1)
     | 9 => decide (4 ≤ n ∧ n ≤ 68)
     | 10 => decide (n = 64 ∧ fEpoch fr = false ∧ bits fr.w0 45 44 = 0)
     | 11 => decide (n = 64 ∧ fEpoch fr = false ∧ bits fr.w0 45 44 = 0)
     | 12 => decide (n = 64 ∧ fEpoch fr = false ∧ bits fr.w0 45 44 = 0)
     | _ => decide (n = 0))

/-! State. -/
def Mod.oport (m : Mod) (p : Nat) : Port := mget .zero m.ports p
def Mod.setOport (m : Mod) (p : Nat) (x : Port) : Mod := { m with ports := mset .zero m.ports p x }
def flowKey (dev tc : Nat) : Nat := dev * 2 + tc
def Mod.flow (m : Mod) (dev tc : Nat) : Flow := mget .zero m.flows (flowKey dev tc)
def Mod.setFlow (m : Mod) (dev tc : Nat) (x : Flow) : Mod := { m with flows := mset .zero m.flows (flowKey dev tc) x }
def Mod.tag (m : Mod) (t : Nat) : Option TagUse := mget none m.tags t

/-- The number of a port's counters' place (Table 20-1, KIND 8). -/
def Mod.countPort (m : Mod) (p code n : Nat) : Mod := m.count 8 code p 0 0 n
def Mod.countShedin (m : Mod) (code : Nat) : Mod := m.count 11 code 0 0 0 1

/-! The drain of an epoch change (R260, R261). -/
def Mod.oldEpoch (m : Mod) (fr : Frame) : Bool := !isGroup fr && (fEpoch fr != m.epoch)
def Mod.tallyUp (m : Mod) (fr : Frame) : Mod := if m.isSet shDraining && m.oldEpoch fr then m.addSat drainTally 1 else m
def Mod.tallyDown (m : Mod) (fr : Frame) : Mod :=
  if m.isSet shDraining && m.oldEpoch fr then m.put drainTally (m.get drainTally - 1) else m

/-! Sending on a link (R245, R246, R312, R316). A lane's credits have no number in the spec: every lane has room (log entry 50). -/

/-- The claimant a frame belongs to at a link: the company of its JOB where this device sends it, 16 in transit. -/
def Mod.claimant (m : Mod) (fr : Frame) : Nat :=
  if fSrc fr = m.get devNum then ((allCos.find? (fun c => decide (m.get (sjJob c) = fJob fr ∧ fJob fr ≠ 0))).getD 16) else 16

/-- The first of the claimants 0 to 16 after the last served for which something waits (R316). -/
def roundRobin (last : Nat) (waits : Nat → Bool) : Option Nat :=
  ((List.range 17).map (fun i => (last + i) % 17)).find? waits

/-- The place in `served` of a link's last claimant (plus 1). -/
def linkServed (p : Nat) : Nat := 0x1000000 + p

/-! Guaranteed shares (R312 to R314). A claimant's guarantee is due once its share of the bytes served since it began to wait reaches the
guaranteed bytes it has had; of those due, the one whose next message has the earliest deadline goes. With shares that sum to 64 or less,
none falls behind its share by more than one message. Capacity left over goes round-robin. -/

def Arb.claim (a : Arb) (c : Nat) : Nat × Nat :=
  match a.claims.find? (fun e => decide (e.1 = c)) with
  | some e => e.2
  | none => (a.total, 0)

def Arb.due (a : Arb) (share : Nat → Nat) (c : Nat) : Bool :=
  decide (0 < share c ∧ 64 * (a.claim c).2 ≤ (a.total - (a.claim c).1) * share c)

/-- The bytes served by which a claimant's next message is to have gone. -/
def Arb.deadline (a : Arb) (share size : Nat → Nat) (c : Nat) : Nat :=
  (a.claim c).1 + ceilDiv (64 * ((a.claim c).2 + size c)) (share c)

/-- The claimant served next, and whether by its guarantee. -/
def Arb.next (a : Arb) (waits : List Nat) (share size : Nat → Nat) : Option (Nat × Bool) :=
  match waits.filter (a.due share) with
  | [] => (roundRobin a.turn (shas waits)).map (fun c => (c, false))
  | c :: l => some (l.foldl (fun b d => if a.deadline share size d < a.deadline share size b then d else b) c, true)

/-- A message of `n` bytes of a claimant served; those that still wait. -/
def Arb.serve (a : Arb) (c n : Nat) (own : Bool) (waits : List Nat) : Arb :=
  { total := a.total + n
    claims := waits.map (fun d => (d, let k := a.claim d; if d = c ∧ own = true then (k.1, k.2 + n) else k))
    turn := if own then a.turn else (c + 1) % 17 }

/-- A claimant's guaranteed 64ths of a port's bulk bytes (R312). -/
def Mod.optShare (m : Mod) (c : Nat) : Nat := if c = 16 then 16 else if m.isSet (cdEn c) then m.get (csOpt c) else 0

def frameBytes (fr : Frame) : Nat := 32 + 8 * fr.payload.length

def isControl (fr : Frame) : Bool := !isGroup fr && decide (fTc fr = 0)
def isBulk (fr : Frame) : Bool := !isGroup fr && decide (fTc fr = 1)

/-- The control frame that a port sends next, round-robin by claimant (R316). -/
def Mod.nextControl (m : Mod) (p : Nat) : Option Nat :=
  let q := (m.oport p).egress
  match roundRobin (mget 0 m.served (linkServed p)) (fun c => q.any (fun fr => isControl fr && decide (m.claimant fr = c))) with
  | some c => q.findIdx? (fun fr => isControl fr && decide (m.claimant fr = c))
  | none => none

/-- The bulk frame that a port sends next (R312), and its arbitration after it. -/
def Mod.nextBulk (m : Mod) (p : Nat) : Option (Nat × Arb) :=
  let x := m.oport p
  let first := fun (q : List Frame) (c : Nat) => q.findIdx? (fun fr => isBulk fr && decide (m.claimant fr = c))
  let waits := fun (q : List Frame) => (List.range 17).filter (fun c => (first q c).isSome)
  let size := fun c => (((first x.egress c).bind (fun i => x.egress[i]?)).map frameBytes).getD 0
  match x.arb.next (waits x.egress) m.optShare size with
  | some (c, own) => (first x.egress c).map (fun i => (i, x.arb.serve c (size c) own (waits (x.egress.eraseIdx i))))
  | none => none

/-- The frame that leaves a port next (R246): a control frame before all others; bulk and group frames in turn, so that neither waits for
the other. Its index, the bulk arbitration after it, and whether it is a group frame. -/
def Mod.nextFrame (m : Mod) (p : Nat) : Option (Nat × Arb × Bool) :=
  let x := m.oport p
  match m.nextControl p with
  | some i => some (i, x.arb, x.groupLast)
  | none =>
    match x.egress.findIdx? isGroup, m.nextBulk p with
    | some g, some b => if x.groupLast then some (b.1, b.2, false) else some (g, x.arb, true)
    | some g, none => some (g, x.arb, true)
    | none, some b => some (b.1, b.2, false)
    | none, none => none

/-- A frame as it goes out on a link: LINK_SEQ, LINK_ACK and the CRC rewritten (R245). -/
def stamp (x : Port) (fr : Frame) : Frame :=
  let fr := setW3 (setW3 fr 31 22 x.nextSeq) 21 12 x.expect
  setW3 fr 63 32 (frameCrc fr).toNat

/-- Frames leave a port that is up while fewer than 1,023 are unacknowledged (R245). -/
def Mod.egressGo (m : Mod) (p : Nat) : Nat → Mod
  | 0 => m
  | n + 1 =>
    let x := m.oport p
    if m.portUp p && decide (x.unacked.length < 1023) then
      match m.nextFrame p with
      | none => m
      | some (i, arb, grp) =>
        match x.egress[i]? with
        | none => m
        | some fr =>
          let out := stamp x fr
          let m := if isControl fr then { m with served := mset 0 m.served (linkServed p) (m.claimant fr + 1) } else m
          let m := m.setOport p { x with
            egress := x.egress.eraseIdx i, nextSeq := (x.nextSeq + 1) % 1024, unacked := x.unacked ++ [out], arb := arb, groupLast := grp }
          (((m.countPort p 1 1).tallyDown fr).emit (.frame p out)).egressGo p n
    else m

/-- A frame put at a port's egress edge. -/
def Mod.toEgress (m : Mod) (p : Nat) (fr : Frame) : Mod :=
  let x := m.oport p
  let m := m.setOport p { x with egress := x.egress ++ [fr] }
  m.egressGo p (m.oport p).egress.length

/-! Flows (R249 to R252). -/

/-- Whether the device may inject (R252, R277). -/
def Mod.mayInject (m : Mod) : Bool := m.isSet injEn && !m.quiet

/-- Whether the window of a flow lets a packet go (R251). -/
def inWindow (x : Flow) (fr : Frame) : Bool := decide ((fSeq fr + 65536 - x.acked) % 65536 < 32768)

/-- A packet of a flow sent with the flow's receive mark (R251). -/
def Mod.sendFlow (m : Mod) (p : Nat) (fr : Frame) : Mod :=
  let x := m.flow (fDst fr) (fTc fr)
  (m.setFlow (fDst fr) (fTc fr) { x with told := x.mark }).toEgress p (setW1 fr 47 32 x.mark)

/-- A sequenced packet numbered and sent, or held back by the window or while injection is closed (R249, R251, R252, R277). `num`: it
already has its number; `answer`: it answers a packet that closed injection refuses. -/
def Mod.toFlow (m : Mod) (p : Nat) (fr : Frame) (num answer : Bool) : Mod :=
  let x := m.flow (fDst fr) (fTc fr)
  let fr := if num then fr else setW1 fr 63 48 x.next
  let x := { x with next := if num then x.next else (x.next + 1) % 65536 }
  let m := m.setFlow (fDst fr) (fTc fr) x
  if inWindow x fr && (if answer then !m.quiet else x.held.isEmpty && m.mayInject) then m.sendFlow p fr
  else m.setFlow (fDst fr) (fTc fr) { x with held := x.held ++ [(p, fr)] }

/-- Packets that the window, and open injection, now let go (R251, R277). -/
def Mod.flowGo (m : Mod) (dev tc : Nat) : Nat → Mod
  | 0 => m
  | n + 1 =>
    let x := m.flow dev tc
    match x.held with
    | (p, fr) :: rest =>
      if m.mayInject && inWindow x fr then ((m.setFlow dev tc { x with held := rest }).sendFlow p fr).flowGo dev tc n
      else m
    | [] => m

/-- An ACK_SEQ received for a flow (R251). -/
def Mod.flowAck (m : Mod) (dev tc a : Nat) : Mod :=
  let x := m.flow dev tc
  (m.setFlow dev tc { x with acked := a }).flowGo dev tc x.held.length

/-- The receive mark advanced past every delivered number (R250). -/
def markOn (d : Nat) (got : List Nat) : Nat → Nat × List Nat
  | 0 => (d, got)
  | n + 1 => if shas got d then markOn ((d + 1) % 65536) (sdel got d) n else (d, got)

/-- Whether a sequenced packet is a duplicate (R250). -/
def isDup (x : Flow) (q : Nat) : Bool := decide (32768 ≤ (q + 65536 - x.mark) % 65536) || shas x.got q

def flowTake (x : Flow) (q : Nat) : Flow :=
  let r := markOn x.mark (sadd x.got q) (x.got.length + 1)
  { x with mark := r.1, got := r.2 }

/-- A flow pair reset (R252); packets that still wait are numbered anew. -/
def flowReset (x : Flow) : Flow :=
  { Flow.zero with
    next := x.held.length % 65536
    held := x.held.zipIdx.map (fun e => (e.1.1, setW1 (setW1 e.1.2 63 48 e.2) 47 32 0)) }

/-- Every flow from and towards a device reset (R252). -/
def Mod.resetFlows (m : Mod) (dev : Nat) : Mod :=
  m.each [0, 1] (fun m tc =>
    let m := m.setFlow dev tc (flowReset (m.flow dev tc))
    m.flowGo dev tc (m.flow dev tc).held.length)

/-- Every flow's waiting packets tried (R251, R252). -/
def Mod.allFlowsGo (m : Mod) : Mod := m.each m.flows (fun m e => m.flowGo (e.1 / 2) (e.1 % 2) e.2.held.length)

/-! Building packets. -/

/-- A device-addressed packet of this device: KIND, class, SIZE, DST, TAG, then JOB, DGEN, STATUS, CGEN. -/
def Mod.header (m : Mod) (kind tc size dst tag job dgen st cgen : Nat) (payload : List Word) : Frame :=
  { w0 := BitVec.ofNat 64 (kind * 2 ^ 60 + ofBool m.epoch * 2 ^ 59 + tc * 2 ^ 58 + size * 2 ^ 46 + dst * 2 ^ 34 +
      m.get devNum * 2 ^ 22 + tag)
    w1 := BitVec.ofNat 64 (job * 2 ^ 16 + dgen * 2 ^ 8 + st), w2 := 0, w3 := BitVec.ofNat 64 (cgen * 2), payload := payload
    fecOk := true, dst := 0 }

/-- KIND, class, words asked or sent, payload of a request (Table 11-4). -/
def reqPayload (op : FabOp) : Nat × Nat × Nat × List Word × Nat × Nat :=
  match op with
  | .load => (1, 0, 1, [], 0, 0)
  | .read n => (1, 1, n / 8, [], 0, 0)
  | .store v => (2, 0, 1, [v], 0, 0)
  | .write bs bad => (2, 1, bs.length / 8, bytesWords bs, 0, if bad.isEmpty then 0 else 5)
  | .atomic 5 v c => (3, 0, 2, [c, v], 5, 0)
  | .atomic o v _ => (3, 0, 1, [v], o, 0)

def Mod.reqFrame (m : Mod) (r : Req) (tag : Nat) : Frame :=
  let y := reqPayload r.op
  let fr := m.header y.1 y.2.1 y.2.2.1 (faDev r.addr) tag (m.get (sjJob r.co)) r.gens.dgen y.2.2.2.2.2 r.gens.cgen y.2.2.2.1
  let fr := { fr with w2 := BitVec.ofNat 64 (faSpace r.addr * 2 ^ 60 + faOff r.addr * 2 ^ 12 + r.ledger.getD 0) }
  setW3 (setW0 fr 21 21 (ofBool r.ledger.isSome)) 11 9 y.2.2.2.2.1

/-- The packet of a reply to another device's request: data, an acknowledgement, or a status. -/
def Mod.repFrame (m : Mod) (r : Reply) (dev tag : Nat) (bulk : Bool) (kind job : Nat) : Frame :=
  let tc := ofBool bulk
  let mk := fun k n st (pl : List Word) => m.header k tc n dev tag job r.gens.dgen st r.gens.cgen pl
  if r.status ≠ 0 then mk 7 0 r.status []
  else if kind = 1 then mk 4 (r.bytes.length / 8) (if r.bad.isEmpty then 0 else 5) (bytesWords r.bytes)
  else if kind = 2 then mk 5 0 0 []
  else mk 6 1 0 (bytesWords r.bytes)

/-- A sequenced packet of this device injected at a port (R249). -/
def Mod.inject (m : Mod) (p : Nat) (fr : Frame) : Mod := (m.countShedin 1).toFlow p fr false false

/-- A route decision for a packet by its own epoch's table, from a router (R257). -/
def Mod.routeOf (m : Mod) (fr : Frame) (mx my : Nat) : Option Nat := m.pickPort (fEpoch fr) (fDst fr) mx my (fTc fr)

/-- A router from a free value, where the manual does not say which attachment router a packet uses (log entry 2). -/
def Mod.someRouter (m : Mod) : Nat × Mod := let d := m.draw; (bits d.1 15 0, d.2)

/-! Tags (R253, R255, R315, R402). -/

/-- The lowest number that is not a key. -/
def firstFree {α : Type} : Nat → SMap α → Nat
  | k, [] => k
  | k, (j, _) :: l => if j = k then firstFree (k + 1) l else k

def tagCo (t : Option TagUse) : Nat := (t.map (fun u => if u.dead then 16 else u.req.co)).getD 16

/-- Tags a company holds (R315). -/
def Mod.tagsOf (m : Mod) (c : Nat) : Nat := (m.tags.filter (fun e => decide (tagCo e.2 = c))).length

/-- Whether a company may take a tag (R253, R315): one of its own, or of those that no enabled company reserves. -/
def Mod.tagFree (m : Mod) (c : Nat) : Bool :=
  let on := allCos.filter (fun k => m.isSet (cdEn k))
  let own := (on.map (fun k => Nat.min (m.tagsOf k) 8192)).foldl (· + ·) 0
  decide (m.tags.length < 262144) && (decide (m.tagsOf c < 8192) || decide (m.tags.length - own < 262144 - 8192 * on.length))

def Mod.countTags (m : Mod) : Mod := m.put tagsBusy m.tags.length

/-- A request injected with a tag (R253). -/
def Mod.injectReq (m : Mod) (p : Nat) (r : Req) (mx my : Nat) : Mod :=
  let t := firstFree 0 m.tags
  let m := ({ m with tags := mset none m.tags t (some ⟨r, p, mx, my, false⟩) }).countTags
  m.inject p (m.reqFrame r t)

/-- A request at an optical edge from the mesh: it takes a tag, or waits for one (R253). -/
def Mod.edgeReq (m : Mod) (p : Nat) (k : Packet) (r : Req) : Mod :=
  let at_ := (ownerCell r.owner).elim (k.mx, k.my) (fun c => cellRouter c.1 c.2)
  if m.mayInject && m.tagFree r.co then m.injectReq p r at_.1 at_.2
  else { m with tagWait := m.tagWait ++ [k] }

/-- Requests that wait for a tag tried again, in order. -/
def Mod.tagGo (m : Mod) : Mod :=
  let l := m.tagWait
  l.foldl (fun m k =>
    match k.body, k.dest with
    | .req r, .optical p => m.edgeReq p k r
    | _, _ => m) { m with tagWait := [] }

/-- A tag freed. -/
def Mod.freeTag (m : Mod) (t : Nat) : Mod := ({ m with tags := merase m.tags t }).countTags

/-- A status of an edge for the holder of a tag, injected at the edge's attachment router (R215); with none in service, put at its
engine. -/
def Mod.replyTag (m : Mod) (u : TagUse) (r : Reply) : Mod :=
  match ownerCell u.req.owner with
  | some (f, l) =>
    match m.attach (optRouters u.port) (u.mx + u.my) with
    | some a => let t := cellRouter f l; m.atRouter a.1 a.2 ⟨true, (repShape r).1, (repShape r).2, t.1, t.2, .cell f l, u.req.co, .rep r⟩
    | none => m.replyHere f l r
  | none => m

/-- A tag's request ended with a status (R255). -/
def Mod.tagStatus (m : Mod) (t st : Nat) : Mod :=
  match m.tag t with
  | some u => if u.dead then m else ((m.freeTag t).replyTag u (statusReply u.req st)).tagGo
  | none => m

/-! Statuses and bounces (R254, R255, R261, R262). -/

/-- The tag holder of a packet (R254): none for statuses, flow acknowledgements, bounces, groups. Of a packet with a reserved KIND the
spec names none: KIND 0 is taken as a request's, 0xD to 0xF as group kinds (DESIGN CHOICE, log entry 51). -/
def tagHolder (fr : Frame) : Option Nat :=
  if fKind fr ≤ 3 then some (fSrc fr) else if fKind fr ≤ 6 then some (fDst fr) else none

/-- A status about a packet sent to its tag holder; `answer`: injection is closed. -/
def Mod.statusVia (m : Mod) (fr : Frame) (st : Nat) (answer : Bool) : Mod :=
  match tagHolder fr with
  | none => m
  | some d =>
    if d = m.get devNum then m.tagStatus (fTag fr) st
    else
      let sf := m.header 7 (fTc fr) 0 d (fTag fr) (fJob fr) (fDgen fr) st (fCgen fr) []
      let q := m.someRouter
      match q.2.routeOf sf (q.1 % 216) (q.1 / 216 % 128) with
      | some p => (q.2.countShedin 1).toFlow p sf false answer
      | none => q.2

def Mod.statusTo (m : Mod) (fr : Frame) (st : Nat) : Mod := m.statusVia fr st false

/-- A refused packet returned to its source as a bounce (R262). One that SIZE cannot hold, itself a bounce, is discarded and counted
(DESIGN CHOICE, log entry 51). -/
def Mod.bounce (m : Mod) (fr : Frame) : Mod :=
  if 64 < fr.payload.length then m.countShedin 3
  else
    let pl := [fr.w0, fr.w1, fr.w2, fr.w3] ++ fr.payload
    let b := m.header 9 (fTc fr) pl.length (fSrc fr) 0 (fJob fr) (fDgen fr) 0x10 (fCgen fr) pl
    if fSrc fr = m.get devNum then { m with bounces := m.bounces ++ [b] }
    else
      let q := m.someRouter
      match q.2.routeOf b (q.1 % 216) (q.1 / 216 % 128) with
      | some p => (q.2.countShedin 3).inject p b
      | none => q.2

/-- A packet sent again under its own number by any live candidate, or not at all (R247, R255). `gone`: it had left, so that a drain's
tally takes it in again (R260). -/
def Mod.resend (m : Mod) (gone : Bool) (fr : Frame) : Mod :=
  let q := m.someRouter
  match q.2.routeOf fr (q.1 % 216) (q.1 / 216 % 128) with
  | some p => (if gone then q.2.tallyUp fr else q.2).toEgress p fr
  | none => (if gone then q.2 else q.2.tallyDown fr).statusTo fr 2

/-! Links (R243 to R247). -/

/-- An event of a link recorded (Table 17-7, class 0x04). -/
def Mod.linkRecord (m : Mod) (p lane what n : Nat) : Mod :=
  m.record ⟨2, 4, 3, p + lane * 2 ^ 6, 0x800, 0, none, what + n * 2 ^ 16⟩

/-- A port that goes down into a state (R244, R247). -/
def Mod.portDown (m : Mod) (p st : Nat) : Mod :=
  let x := m.oport p
  let all := x.unacked ++ x.egress
  let groups := (all.filter isGroup).length
  let m := (m.put (portState p) st).setOport p { x with
    egress := [], unacked := [], failed := 0, sparing := decide (st = 4), arb := { x.arb with claims := [] } }
  let m := if st = 4 then m else m.linkRecord p 0 1 1
  let m := if groups = 0 then m else (m.countPort p 6 groups).linkRecord p 0 3 groups
  let dev := fun (l : List Frame) => l.filter (fun fr => !isGroup fr)
  (m.each (dev x.unacked) (fun m fr => m.resend true fr)).each (dev x.egress) (fun m fr => m.resend false fr)

/-- Frames a LINK_ACK covers taken out (R245): those before it (log entry 17). -/
def ackFrames (a : Nat) (l : List Frame) : List Frame :=
  match l with
  | [] => []
  | fr :: _ => l.drop (Nat.min l.length ((a + 1024 - fLinkSeq fr) % 1024))

/-- A retry asked for, once until the missing frame arrives (R245). -/
def Mod.askRetry (m : Mod) (p : Nat) : Mod :=
  let x := m.oport p
  if x.asked then m else (m.setOport p { x with asked := true }).countPort p 5 1

/-- LINK_FRAME_RECEIVE (R245). -/
def Mod.frameIn (m : Mod) (p : Nat) (fr : Frame) : Mod :=
  if !m.portUp p then m
  else
    let m := m.countPort p 2 1
    if !fr.fecOk || decide (bits fr.w3 63 32 ≠ (frameCrc fr).toNat) then (m.countPort p 4 1).askRetry p
    else
      let x := m.oport p
      let left := ackFrames (fLinkAck fr) x.unacked
      let x := { x with unacked := left, failed := if left.any (fun f => decide (fLinkSeq f = x.failSeq)) then x.failed else 0 }
      let d := (fLinkSeq fr + 1024 - x.expect) % 1024
      let m :=
        if d = 0 then
          (m.setOport p { x with expect := (x.expect + 1) % 1024, asked := false, ingress := x.ingress ++ [fr] }).tallyUp fr
        else if d < 512 then (m.setOport p x).askRetry p
        else m.setOport p x
      m.egressGo p (m.oport p).egress.length

/-- LINK_RETRY (R244, R245): the unacknowledged frames from a number on are sent again. The same number asked for after 16 retries of it
takes the port down. -/
def Mod.linkRetry (m : Mod) (p q : Nat) : Mod :=
  let x := m.oport p
  let again := ackFrames q x.unacked
  let n := if x.failSeq = q then x.failed else 0
  if !m.portUp p || again.isEmpty then m
  else if 16 ≤ n then m.portDown p 1
  else
    let m := m.setOport p { x with failSeq := q, failed := n + 1 }
    m.each again (fun m fr =>
      let out := stamp { m.oport p with nextSeq := fLinkSeq fr } fr
      (m.countPort p 1 1).emit (.frame p out))

/-- Whether a port's failed lanes leave it fewer than 16 data lanes (R243): the fuse map's lane, those of LANE_FAIL, and the spare. -/
def Mod.fewLanes (m : Mod) (p : Nat) : Bool :=
  let l := m.get (portLanes p)
  let n := ((List.range 16).filter (fun i => decide (l / 2 ^ i % 2 = 1))).length + ofBool (shas m.fuses.spareLanes p)
  decide (2 ≤ n ∨ (n = 1 ∧ l / 2 ^ 16 = 1))

/-- A lane judged failed (R243, R357), and the spare brought in for a data lane. -/
def Mod.laneOut (m : Mod) (p lane : Nat) : Mod :=
  if m.get (portLanes p) / 2 ^ lane % 2 = 1 then m
  else
    let m := (m.put (portLanes p) (m.get (portLanes p) ||| 2 ^ lane)).addDefect (.lane p lane)
    if m.fewLanes p || decide (lane = 16) || m.isSet (portSpare p) then m else (m.put (portSpare p) 1).linkRecord p lane 2 1

/-- LANE_LOSS (R243, R244, R357): of a lane in service, or of the spare that waits. -/
def Mod.laneLost (m : Mod) (p lane : Nat) : Mod :=
  if !m.portUp p || decide (m.get (portLanes p) / 2 ^ lane % 2 = 1) then m
  else
    let m' := m.laneOut p lane
    if m'.fewLanes p then m'.portDown p 5 else if lane = 16 then m' else m'.portDown p 4

/-- The lanes of a port as the fuse map lists them, before a chip reset's training (R243). -/
def Mod.lanesFused (m : Mod) (p : Nat) : Mod := (m.put (portLanes p) 0).put (portSpare p) (ofBool (shas m.fuses.spareLanes p))

/-- A port's training or sparing ends (R243, R244): link numbers start at 0 (log entry 17). The lanes that failed it are replaced by the
spare, or the port fails. -/
def Mod.trainDone (m : Mod) (p : Nat) (ok : Bool) (bad : Nat) : Mod :=
  let st := m.get (portState p)
  if st = 2 ∨ st = 4 then
    let m := m.each ((List.range 17).filter (fun i => decide (bad / 2 ^ i % 2 = 1))) (fun m i => m.laneOut p i)
    if m.fewLanes p then m.put (portState p) 5
    else if ok then
      let x := m.oport p
      let m := m.setOport p { x with nextSeq := 0, expect := 0, asked := false, failed := 0, sparing := false }
      let m := { m.put (portState p) 3 with linked := true }
      m.egressGo p (m.oport p).egress.length
    else m.put (portState p) (if st = 4 then 5 else 1)
  else m

end Sys2Proof.Machine
end

