-- ==== Sys2Proof/Machine/Ingress.lean ====
section
/-! DEFINITION. Shedin packets at an ingress edge (R248 to R263, R277, R401), and the group frames that reach a chorus engine
(R268 to R272). -/

namespace Sys2Proof.Machine

/-! Groups (R266 to R272, Table 11-7). -/
def Mod.gLo (m : Mod) (g : Nat) : Word := m.reg (groupOff g)
def Mod.gHi (m : Mod) (g : Nat) : Word := m.reg (groupOff g + 8)
def Mod.gValid (m : Mod) (g : Nat) : Bool := bit (m.gLo g) 63
def Mod.gChorus (m : Mod) (g : Nat) : Bool := bit (m.gLo g) 62
def Mod.gMember (m : Mod) (g : Nat) : Bool := bit (m.gLo g) 61
def Mod.gRoot (m : Mod) (g : Nat) : Bool := bit (m.gLo g) 60
def Mod.gParent (m : Mod) (g : Nat) : Nat := bits (m.gLo g) 59 54
def Mod.gHome (m : Mod) (g : Nat) : Nat := bits (m.gLo g) 53 48
def Mod.gChildren (m : Mod) (g : Nat) : List Nat := (List.range 48).filter (bit (m.gLo g))
def Mod.gJob (m : Mod) (g : Nat) : Nat := bits (m.gHi g) 63 48
def Mod.gRedop (m : Mod) (g : Nat) : Nat := bits (m.gHi g) 47 46
def Mod.gFmt (m : Mod) (g : Nat) : Nat := bits (m.gHi g) 45 42

def Mod.round (m : Mod) (g : Nat) : Option Round := mget none m.rounds g

def Mod.setRound (m : Mod) (g : Nat) (r : Option Round) : Mod := { m with rounds := mset none m.rounds g r }

/-- The company a job number names (R312): an enabled one that holds it, not 0. -/
def Mod.jobCo (m : Mod) (job : Nat) : Option Nat :=
  if job = 0 then none else allCos.find? (fun c => m.isSet (cdEn c) && decide (m.get (sjJob c) = job))

/-- An event of a chorus engine counted (Table 20-1, KIND 9). -/
def Mod.countChorus (m : Mod) (g code n : Nat) : Mod := m.count 9 code (m.gHome g) 0 0 n

/-- A round opened by a chunk's frame (R271). A multicast chunk says its descriptor's DST and ledger (R268); in a chorus round every
member's own descriptor does (R269). -/
def frameRound (fr : Frame) : Round :=
  let cast := decide (fKind fr = 10)
  ⟨none, fSeq fr, fAck fr, [], 0, 0, 0, fStatus fr, cast && fLedger fr, if cast then fLedgerId fr else 0, fr.dst⟩

/-- Whether a group has closed a round (R272): of its last 32,768, which is half the numbers (DESIGN CHOICE, log entry 52). -/
def Mod.hasClosed (m : Mod) (g k : Nat) : Bool := shas (mget [] m.closed g) k

/-- A group frame at its engine (R268 to R272): kept with the round it opens or belongs to; one of a closed round is late; another
round's contribution fails the open round. The company has received a group chunk in its step (R372). -/
def Mod.groupIn (m : Mod) (p : Nat) (fr : Frame) : Mod :=
  let g := bits fr.w0 43 34
  let c : Chunk8 := ⟨if fKind fr = 11 then p else 48, fOffset fr / 512, wordBytes fr.payload⟩
  if !m.gValid g then m.countChorus g 4 1
  else
    let m := match m.jobCo (m.gJob g) with | some co => m.addWhy co 4 | none => m
    match m.round g with
    | none =>
      if m.hasClosed g (fSeq fr) then m.countChorus g 4 1
      else m.setRound g (some { frameRound fr with held := [c] })
    | some r =>
      if r.round = fSeq fr ∧ r.chunks = fAck fr then
        m.setRound g (some { r with held := r.held ++ [c], fail := if r.fail = 0 then fStatus fr else r.fail })
      else if fKind fr = 11 ∧ (r.round = fSeq fr ∨ m.hasClosed g (fSeq fr) = false) then
        m.setRound g (some { r with fail := if r.fail = 0 then 0x15 else r.fail })
      else m.countChorus g 4 1

/-! Requests of other devices (R275, R312, R460). -/

/-- The operation a request packet asks for (Table 11-4). -/
def frameOp (fr : Frame) : FabOp :=
  let w := fun i => ((fr.payload[i]?).getD 0)
  let bs := wordBytes fr.payload
  match fKind fr with
  | 1 => if fTc fr = 0 ∧ fSize fr = 1 then .load else .read (8 * fSize fr)
  | 2 => if fTc fr = 0 ∧ fSize fr = 1 then .store (w 0) else .write bs (if fStatus fr = 5 then List.range fr.payload.length else [])
  | _ => if fOp fr = 5 then .atomic 5 (w 1) (w 0) else .atomic (fOp fr) (w 0) 0

/-- A request packet as a request of a company here. -/
def Mod.frameReq (m : Mod) (fr : Frame) (c : Nat) : Req :=
  ⟨.remote (fSrc fr) (fTag fr) (decide (fTc fr = 1)) (fKind fr), c,
    BitVec.ofNat 64 (m.get devNum * 2 ^ 52 + fSpace fr * 2 ^ 48 + fOffset fr), frameOp fr, ⟨fDgen fr, fCgen fr, 0⟩,
    if fLedger fr then some (fLedgerId fr) else none⟩

/-- Checks 3 and 4 for a request of another device (R460, Table 11-10); 0 where they hold. -/
def Mod.checkRemote (m : Mod) (c : Nat) (r : Req) : Nat :=
  let n := opBytes r.op
  if badSpace r.addr then 1
  else if faSpace r.addr = 1 ∧ m.get (sjRemoteCell c) = 0 then 3
  else if m.noAccess c r.addr n then 3
  else if m.outside c r.addr n then 1
  else 0

/-- A checked request sent into the mesh from its edge (R213, R215). The local position that R213 takes from the attachment router and the
attachment router that R215 takes from the target depend on each other: for the stratum the target is taken from attachment router 0's
position (DESIGN CHOICE, log entry 18). -/
def Mod.remoteGo (m : Mod) (p : Nat) (r : Req) : Mod :=
  if faSpace r.addr = 1 then
    let dst := cellRouter (faField r.addr) (faCell r.addr)
    match m.attach (optRouters p) (dst.1 + dst.2) with
    | some a => m.atRouter a.1 a.2 (reqPacket r dst (.cell (faField r.addr) (faCell r.addr)))
    | none => m
  else
    let F := (m.stratPlace r.co (faOff r.addr)).1
    let home := fun (a : Nat × Nat) => (F % 9 * 24 + a.1 % 24, F / 9 * 16 + a.2 % 16)
    match m.attach (optRouters p) 0 with
    | none => m
    | some a0 =>
      let t0 := home a0
      match m.attach (optRouters p) (t0.1 + t0.2) with
      | none => m
      | some a => let t := home a; m.atRouter a.1 a.2 (reqPacket r t (.strat F))

/-- A request packet delivered (R255, R312, R372). -/
def Mod.remoteIn (m : Mod) (p : Nat) (fr : Frame) : Mod :=
  match m.jobCo (fJob fr) with
  | none => m.statusTo fr 0x16
  | some c =>
    let r := m.frameReq fr c
    let m := if isWrite r.op || isAtomic r.op then m.addWhy c 4 else m
    let st := m.checkRemote c r
    if st ≠ 0 then m.statusTo fr st else m.remoteGo p r

/-! Replies of other devices (R255, R401, R402). -/

/-- The reply a packet gives its tag's request; poisoned data ends a scalar access with 0x05 (R191; log entry 16). -/
def tagReply (u : TagUse) (fr : Frame) : Reply :=
  let bs := wordBytes fr.payload
  let g : Gens := ⟨fDgen fr, fCgen fr, u.req.gens.egen⟩
  match u.req.owner with
  | .scalar _ _ _ => ⟨u.req.owner, fStatus fr, bs, [], g⟩
  | _ =>
    if fKind fr = 4 ∧ fStatus fr = 5 then ⟨u.req.owner, 0, bs, List.range fr.payload.length, g⟩
    else ⟨u.req.owner, fStatus fr, bs, [], g⟩

def Mod.replyIn (m : Mod) (p : Nat) (fr : Frame) : Mod :=
  match m.tag (fTag fr) with
  | none => m.countPort p 7 1
  | some u =>
    if u.dead then m.countPort p 7 1
    else
      let m := m.freeTag (fTag fr)
      let r := tagReply u fr
      match ownerCell u.req.owner with
      | none => m.tagGo
      | some (f, l) =>
        let dst := cellRouter f l
        match m.attach (optRouters p) (dst.1 + dst.2) with
        | some a => (m.atRouter a.1 a.2 ⟨true, (repShape r).1, (repShape r).2, dst.1, dst.2, .cell f l, u.req.co, .rep r⟩).tagGo
        | none => (m.replyHere f l r).tagGo

/-- The packet in a bounce (R262). -/
def bounced (fr : Frame) : Frame :=
  let w := fun i => ((fr.payload[i]?).getD 0)
  ⟨w 0, w 1, w 2, w 3, fr.payload.drop 4, true, 0⟩

/-! Generations of other devices (R252, R401). -/

/-- Whether a packet's DGEN is its source's own: a request's or a flow acknowledgement's (log entry 19). -/
def ownDgen (fr : Frame) : Bool := decide (fKind fr ≤ 3 ∨ fKind fr = 8)

/-- Whether a request's DGEN is behind the one recorded for its source (log entry 19). -/
def Mod.staleSrc (m : Mod) (fr : Frame) : Bool :=
  let k := mget 0 m.peers (fSrc fr)
  ownDgen fr && decide (k ≠ 0 ∧ (fDgen fr + 256 - (k - 1)) % 256 ≥ 128)

/-- A source's generation recorded; a new one resets its flows (R252). -/
def Mod.seeGen (m : Mod) (fr : Frame) : Mod :=
  let k := mget 0 m.peers (fSrc fr)
  if !ownDgen fr || decide (k = fDgen fr + 1) then m
  else
    let m := { m with peers := mset 0 m.peers (fSrc fr) (fDgen fr + 1) }
    if k = 0 then m else m.resetFlows (fSrc fr)

/-- A packet that closed injection refuses is answered with 0x02 (R277); one that names a tag here ends that tag's request. -/
def Mod.closedAnswer (m : Mod) (fr : Frame) : Mod := if fKind fr = 7 then m.tagStatus (fTag fr) 2 else m.statusVia fr 2 true

/-- A packet addressed to this device (R250 to R255, R261, R277). A bounce is kept until injection is open. -/
def Mod.deliver (m : Mod) (p : Nat) (fr : Frame) : Mod :=
  if m.staleSrc fr then m.countStale none
  else
    let m := m.seeGen fr
    let m := m.flowAck (fSrc fr) (fTc fr) (fAck fr)
    if fKind fr = 8 then m
    else
      let x := m.flow (fSrc fr) (fTc fr)
      if isDup x (fSeq fr) then m.countShedin 5
      else
        let m := (m.setFlow (fSrc fr) (fTc fr) (flowTake x (fSeq fr))).countShedin 2
        if m.isSet injEn = false ∧ fKind fr ≠ 9 then m.closedAnswer fr
        else if fKind fr ≤ 3 then m.remoteIn p fr
        else if fKind fr = 9 then { m with bounces := m.bounces ++ [fr] }
        else m.replyIn p fr

/-- A packet in transit (R254 to R257, R260, R261). Its header says the links it had crossed when it was sent on this one, so 31 is
reached as it would go out with 31. A version that has retired refuses its packets; one not active yet routes them. Its ingress attachment
router is a free value (log entry 2). -/
def Mod.transit (m : Mod) (p : Nat) (fr : Frame) : Mod :=
  if 30 ≤ fHops fr then (m.countPort p 8 1).statusTo fr 0x11
  else if m.oldEpoch fr && m.retired then m.bounce fr
  else
    let d := m.draw
    match d.2.attach (optRouters p) (bits d.1 15 0) with
    | none => d.2.statusTo fr 2
    | some a =>
      match d.2.routeOf fr a.1 a.2 with
      | some q => (d.2.tallyUp fr).toEgress q (setW0 fr 57 53 (fHops fr + 1))
      | none => d.2.statusTo fr 2

/-- SHEDIN_PACKET_ARRIVAL (R248, R257): the packet at the front of a port's ingress edge. -/
def Mod.arrival (m : Mod) (p : Nat) : Mod :=
  let x := m.oport p
  match x.ingress with
  | [] => m
  | fr :: rest =>
    let m := (m.setOport p { x with ingress := rest }).tallyDown fr
    if !frameOk fr then (if isGroup fr then m else m.statusTo fr 1)
    else if isGroup fr then m.groupIn p fr
    else if fDst fr = m.get devNum then m.deliver p fr
    else m.transit p fr

/-- A frame discarded for its residence (R254). -/
def Mod.residenceOut (m : Mod) (p : Nat) (x : Port) (fr : Frame) : Mod :=
  (((m.setOport p x).tallyDown fr).countPort p 8 1).statusTo fr 0x12

/-- Another device's request on the mesh discarded for its residence (R254). -/
def Mod.residenceMesh (m : Mod) (o : MeshOut) (i : Nat) : Mod :=
  let key := outKey o.reply o.mx o.my o.dir
  let q := mget [] m.routers key
  match q[i]? with
  | some k =>
    match k.body with
    | .req r =>
      match r.owner with
      | .remote dev tag bulk kind =>
        let fr := m.header kind (ofBool bulk) 0 (m.get devNum) tag (m.get (sjJob r.co)) r.gens.dgen 0 r.gens.cgen []
        { m with routers := mset [] m.routers key (q.eraseIdx i) }.statusTo (setW0 fr 33 22 dev) 0x12
      | _ => m
    | _ => m
  | none => m

/-- RESIDENCE_LIMIT (R254): the i-th packet at a place is discarded. -/
def Mod.residence (m : Mod) (p : Nat) (at_ : ResAt) (i : Nat) : Mod :=
  match at_ with
  | .ingress =>
    let x := m.oport p
    match x.ingress[i]? with
    | some fr => m.residenceOut p { x with ingress := x.ingress.eraseIdx i } fr
    | none => m
  | .egress =>
    let x := m.oport p
    match x.egress[i]? with
    | some fr => m.residenceOut p { x with egress := x.egress.eraseIdx i } fr
    | none => m
  | .mesh o => m.residenceMesh o i

/-- FLOW_ACKNOWLEDGEMENT (R251): KIND 8 with a mark not yet told. -/
def Mod.flowTell (m : Mod) (dev tc : Nat) : Mod :=
  let x := m.flow dev tc
  if x.mark = x.told ∨ m.mayInject = false then m
  else
    let fr := setW1 (m.header 8 tc 0 dev 0 0 (m.get rtDgen) 0 0 []) 47 32 x.mark
    let m := m.setFlow dev tc { x with told := x.mark }
    let q := m.someRouter
    match q.2.routeOf fr (q.1 % 216) (q.1 / 216 % 128) with
    | some p => (q.2.countShedin 1).toEgress p fr
    | none => q.2

/-- BOUNCE_REINJECT (R262): the bounced packet goes out again in the bounce's epoch under its own number; not while injection is closed
(R277). -/
def Mod.reinject (m : Mod) : Mod :=
  match if m.mayInject then m.bounces else [] with
  | [] => m
  | b :: rest =>
    let fr := setW0 (setW0 (bounced b) 59 59 (ofBool (fEpoch b))) 57 53 0
    let q := { m with bounces := rest }.someRouter
    match q.2.routeOf fr (q.1 % 216) (q.1 / 216 % 128) with
    | some p => if isSequenced fr then (q.2.countShedin 4).toFlow p fr true false else (q.2.countShedin 4).toEgress p fr
    | none => q.2.statusTo fr 2

/-! Epoch change (R259 to R261). -/

/-- Old-epoch packets in the device, of the epoch that INJ_EPOCH had (R260). -/
def Mod.residents (m : Mod) (e : Bool) : Nat :=
  let old := fun (l : List Frame) => (l.filter (fun fr => !isGroup fr && (fEpoch fr == e))).length
  ((List.range 48).map (fun p => old (m.oport p).ingress + old (m.oport p).egress)).foldl (· + ·) 0 +
    (m.flows.map (fun x => old (x.2.held.map (·.2)))).foldl (· + ·) 0

/-- FLIP (R260). -/
def Mod.flip (m : Mod) : Mod :=
  if m.isSet shDraining then m.put flipLost 1
  else
    let n := Nat.min 0xFFFF (m.residents m.epoch)
    let m := ((m.put injEpoch (1 - m.get injEpoch)).put shDraining 1).put drainTally n
    { m with retired := false }

/-- DRAIN_RETIRE (R261): old-epoch packets that still wait for a route decision are refused. -/
def Mod.retire (m : Mod) : Mod :=
  if !m.isSet shDraining then m
  else
    let m := { (m.put shDraining 0).put drainTally 0 with retired := true }
    m.each (List.range 48) (fun m p =>
      let x := m.oport p
      let refuse := fun (fr : Frame) => m.oldEpoch fr && decide (fDst fr ≠ m.get devNum)
      let m' := m.setOport p { x with ingress := x.ingress.filter (fun fr => !refuse fr) }
      m'.each (x.ingress.filter refuse) Mod.bounce)

/-- A write of SHEDIN_CTRL (R260, R277). -/
def Mod.shedinCtrl (m : Mod) (v : Word) : Mod :=
  match regAt shBase with
  | none => m
  | some d =>
    let m := m.counted (m.setReg shBase (applyWrite d (m.reg shBase) v))
    let m := if bit v 2 then m.flip else m
    m.allFlowsGo.tagGo

/-- ROUTE_TABLE_WRITE (R259): a version written again is retired no more (DEDUCED, log entry 53). -/
def Mod.routeWrite (m : Mod) (tb : Bool) (dev : Nat) (v : Word) : Mod :=
  if tb = m.epoch ∨ m.isSet shDraining = true then m.put tableLost 1
  else { m.plainWrite (routeOff tb dev) v with retired := false }

end Sys2Proof.Machine
end

