-- ==== Sys2Proof/Machine/Chorus.lean ====
section
/-! DEFINITION. Group operations: descriptors, multicast, chorus reductions (R266 to R272). -/

namespace Sys2Proof.Machine

/-! Combining (R269, R270, Table 11-9). -/

/-- The FP32 values of a chunk, exactly widened with the flush of R70; none where bytes 15 to 31 of an MXFP8 chunk are
not zero. -/
def chunkVals (fmt : Nat) (b : List Byte) : Option (List Val) :=
  match fmt with
  | 0 => some ((List.range 128).map (fun i => ofFp32 (BitVec.ofNat 32 (le b (4 * i) 4))))
  | 1 => some ((List.range 256).map (fun i => ofBf16 (BitVec.ofNat 16 (le b (2 * i) 2))))
  | _ =>
    if le b 15 17 ≠ 0 then none
    else some ((List.range 15).flatMap (fun k => (mxToFp32 fmt (le b (32 + 32 * k) 32) (le b k 1)).map ofFp32))

/-- Two values folded: a sum rounded under RNE, maximum, minimum (Table 03-12). -/
def foldVal (redop : Nat) (a b : Val) : Val :=
  match redop with
  | 0 => ofFp32 (toFp32 0 0 (a.add b) false)
  | 1 => a.max b
  | _ => a.min b

/-- The chunk of combined values: RO below the root, RNE at the root. -/
def valsChunk (fmt mode : Nat) (vs : List Val) : List Byte :=
  match fmt with
  | 0 => vs.flatMap (fun v => toLe (toFp32 0 0 v false).toNat 4)
  | 1 => vs.flatMap (fun v => toLe (toBf16 mode 0 v false).toNat 2)
  | _ =>
    let bl := (List.range 15).map (fun k => toMx fmt mode none ((vs.drop (32 * k)).take 32) 1)
    bl.flatMap (fun b => toLe b.scl 1) ++ List.replicate 17 0 ++ bl.flatMap (fun b => toLe b.pay 32)

/-- The chunks of a node's inputs folded in order (R269). -/
def combine (fmt redop mode : Nat) (ins : List (List Byte)) : Option (List Byte) :=
  match ins.mapM (chunkVals fmt) with
  | some (v :: vs) => some (valsChunk fmt mode (vs.foldl (List.zipWith (foldVal redop)) v))
  | _ => none

/-! Company stratum for an engine of the module's edge. -/

/-- Whether `n` bytes at an offset are the company's to reach, in a stratum that is ready. -/
def Mod.coBytesOk (m : Mod) (c off n : Nat) : Bool :=
  decide (off + n ≤ m.capacity c) && !m.stratHidden c off n && m.stratReady (m.stratPlace c off).1

def Mod.coKey (m : Mod) (c off : Nat) : Nat := let p := m.stratPlace c off; stratKeyOf p.1 p.2

/-- Bytes of a company, none where they cannot be read. -/
def Mod.coRead (m : Mod) (c off n : Nat) : Mod × Option (List Byte) :=
  if m.coBytesOk c off n then
    let q := m.stratRead (m.coKey c off) n 0x800 5 c
    (q.1, if q.2.2.isEmpty then some q.2.1 else none)
  else (m, none)

def Mod.coWrite (m : Mod) (c off : Nat) (bs : List Byte) : Mod :=
  if m.coBytesOk c off bs.length then (m.stratWrite (m.coKey c off) bs [] 0x800 c).1 else m

/-! Descriptors (R267, Table 11-8). -/

def parseDesc (c : Nat) (b : List Byte) : GroupDesc :=
  ⟨c, le b 0 1, decide (le b 1 1 % 2 = 1), le b 2 2, le b 4 2, le b 6 2, le b 8 8, le b 16 8, le b 24 4, le b 32 8⟩

/-- Reserved values, misalignment or an address past the company's stratum in a descriptor. -/
def Mod.descBad (m : Mod) (c : Nat) (b : List Byte) : Bool :=
  let d := parseDesc c b
  decide (d.op < 1 ∨ 2 < d.op ∨ 2 ≤ le b 1 1 ∨ 1024 ≤ d.group ∨ 4096 ≤ d.ledgerId ∨ d.src % 64 ≠ 0 ∨ d.dst % 64 ≠ 0 ∨
    d.bytes % 512 ≠ 0 ∨ d.bytes < 512 ∨ 0x1000000 < d.bytes ∨ le b 0x1C 4 ≠ 0 ∨ d.doneOff % 8 ≠ 0 ∨ le b 0x28 24 ≠ 0 ∨
    m.capacity c < d.src + d.bytes ∨ m.capacity c < d.dst + d.bytes)

/-- The DONE word: status, chunks written (R267). -/
def Mod.writeDone (m : Mod) (d : GroupDesc) (st n : Nat) : Mod := m.coWrite d.co d.doneOff (toLe (st + n * 2 ^ 16) 8)

/-- CHORUS_GO (R267). -/
def Mod.chorusGo (m : Mod) (c : Nat) (v : Word) : Mod :=
  let x := m.co c
  if 64 ≤ x.chorus.length then m.put (chGoLost c) 1
  else (m.setCo c { x with chorus := x.chorus ++ [bits v 47 0] }).put (chWaiting c) (x.chorus.length + 1)

/-- A descriptor's round opened or joined (R271); its number is a closed round's no more. -/
def Mod.openRound (m : Mod) (d : GroupDesc) : Mod :=
  let n := d.bytes / 512
  let m := { m with closed := mset [] m.closed d.group ((mget [] m.closed d.group).filter (fun k => decide (k ≠ d.round))) }
  match m.round d.group with
  | none => m.setRound d.group (some ⟨some d, d.round, n, [], 0, 0, 0, 0, d.ledger, d.ledgerId, d.dst⟩)
  | some r =>
    m.setRound d.group (some { r with
      desc := some d, fail := if r.fail = 0 ∧ r.chunks ≠ n then 0x15 else r.fail, ledger := d.ledger, ledgerId := d.ledgerId, dst := d.dst })

/-- Whether a descriptor waits for the open round of its group to close (R271). -/
def Mod.descWaits (m : Mod) (d : GroupDesc) : Bool :=
  match m.round d.group with
  | none => false
  | some r => r.desc.isSome || decide (r.round ≠ d.round)

/-- The company's i-th waiting descriptor started or dropped; none where it waits for an open round. An OP that does not match its group
entry's CHORUS bit gives 0x14 (DESIGN CHOICE: R267 names no status; log entry 52). -/
def Mod.descTry (m : Mod) (c i off : Nat) : Option Mod :=
  let rest := (m.co c).chorus.eraseIdx i
  let drop := fun (m : Mod) => (m.modCo c (fun x => { x with chorus := rest })).put (chWaiting c) rest.length
  let q := if off % 64 = 0 then m.coRead c off 64 else (m, none)
  match q.2 with
  | none => some ((drop q.1).put (chBadDesc c) 1)
  | some b =>
    let d := parseDesc c b
    if q.1.descBad c b then some ((drop q.1).writeDone d 1 0)
    else if !q.1.gValid d.group || decide (q.1.gJob d.group ≠ q.1.get (sjJob c)) ||
        decide ((d.op = 2) ≠ (q.1.gChorus d.group = true)) || (decide (d.op = 1) && !q.1.gRoot d.group) then
      some ((drop q.1).writeDone d 0x14 0)
    else if q.1.descWaits d then none
    else some ((drop q.1).openRound d)

/-- GROUP_DESCRIPTOR_START (R267, R268, R271): the company's first waiting descriptor whose group has no open round in its way. -/
def Mod.descStart (m : Mod) (c : Nat) : Mod :=
  (((m.co c).chorus.zipIdx.findSome? (fun e => m.descTry c e.2 e.1))).getD m

/-! Rounds (R268 to R272). -/

/-- A group frame of this device (Table 11-3). -/
def Mod.groupFrame (m : Mod) (kind g k st : Nat) (r : Round) (bs : List Byte) : Frame :=
  { w0 := BitVec.ofNat 64 (kind * 2 ^ 60 + 2 ^ 58 + 64 * 2 ^ 46 + g * 2 ^ 34 + m.get devNum * 2 ^ 22 + ofBool r.ledger * 2 ^ 21)
    w1 := BitVec.ofNat 64 (r.round * 2 ^ 48 + r.chunks * 2 ^ 32 + m.gJob g * 2 ^ 16 + m.get rtDgen * 2 ^ 8 + st)
    w2 := BitVec.ofNat 64 (512 * k * 2 ^ 12 + r.ledgerId), w3 := 0, payload := bytesWords bs, fecOk := true
    dst := if kind = 10 then r.dst else 0 }

/-- A group frame sent out of a port that is up. -/
def Mod.sendGroup (m : Mod) (p : Nat) (fr : Frame) : Mod := if m.portUp p then m.toEgress p fr else m

def Mod.sendDown (m : Mod) (kind g k st : Nat) (r : Round) (bs : List Byte) : Mod :=
  let fr := m.groupFrame kind g k st r bs
  m.each (m.gChildren g) (fun m p => m.sendGroup p fr)

/-- A chunk written at a member, with its ledger additions (R265, R268, R269). -/
def Mod.memberWrite (m : Mod) (g k : Nat) (r : Round) (bs : List Byte) : Mod × Nat :=
  if m.gMember g then
    match m.jobCo (m.gJob g) with
    | none => (m, 0)
    | some c =>
      if m.coBytesOk c (r.dst + 512 * k) 512 then
        let m := m.coWrite c (r.dst + 512 * k) bs
        (if r.ledger then m.addLedger c r.ledgerId 8 else m, 1)
      else (m, 0)
  else (m, 0)

/-- A round closed (R271): DONE where this device has a descriptor. -/
def Mod.closeRound (m : Mod) (g st : Nat) (r : Round) : Mod :=
  let m := match r.desc with | some d => m.writeDone d st r.written | none => m
  let m := { m.setRound g none with closed := mset [] m.closed g ((r.round :: mget [] m.closed g).take 32768) }
  m.countChorus g (if st = 0 then 2 else 3) 1

/-- A failed round (R272): its status goes down in place of results, and up as this node's contribution. -/
def Mod.failRound (m : Mod) (g st : Nat) (r : Round) : Mod :=
  let z := List.replicate 512 (0 : Byte)
  let m := if m.gChorus g then m.sendDown 12 g r.passed st r z else m
  let m := if m.gChorus g && !m.gRoot g then m.sendGroup (m.gParent g) (m.groupFrame 11 g r.sent st r z) else m
  m.closeRound g st r

/-- The round after a chunk, closed when it was the last. -/
def Mod.afterChunk (m : Mod) (g : Nat) (r : Round) (last : Bool) : Mod :=
  if last then m.closeRound g 0 r else m.setRound g (some r)

/-- A downward chunk k in its turn: written at a member and passed to the children. -/
def Mod.downChunk (m : Mod) (kind g k : Nat) (r : Round) (c : Chunk8) : Mod :=
  let w := m.memberWrite g k r c.bytes
  let m := w.1.sendDown kind g k 0 r c.bytes
  let r := { r with held := r.held.filter (fun x => decide (x ≠ c)), passed := r.passed + 1, written := r.written + w.2 }
  m.afterChunk g r (decide (r.chunks ≤ r.passed))

def heldDown (r : Round) (k : Nat) : Option Chunk8 := r.held.find? (fun x => decide (x.port = 48 ∧ x.k = k))

/-- Whether a node that sends group frames has to wait (R252, R277): for its children, and, going up, for its parent. -/
def Mod.groupWaits (m : Mod) (g : Nat) (up : Bool) : Bool :=
  !m.mayInject && (!(m.gChildren g).isEmpty || (up && !m.gRoot g))

/-- MULTICAST_CHUNK (R268). -/
def Mod.multicastChunk (m : Mod) (g k : Nat) : Mod :=
  match m.round g with
  | none => m
  | some r =>
    if m.gChorus g || m.groupWaits g false then m
    else if m.gRoot g then
      match r.desc with
      | none => m
      | some d =>
        if k ≠ r.sent ∨ r.chunks ≤ k then m
        else
          let q := m.coRead d.co (d.src + 512 * k) 512
          match q.2 with
          | none => q.1.failRound g 5 r
          | some bs =>
            let w := q.1.memberWrite g k r bs
            let m := w.1.sendDown 10 g k 0 r bs
            let r := { r with sent := r.sent + 1, passed := r.passed + 1, written := r.written + w.2 }
            m.afterChunk g r (decide (r.chunks ≤ r.sent))
    else if k ≠ r.passed then m
    else match heldDown r k with | some c => m.downChunk 10 g k r c | none => m

/-- A node's inputs for chunk k in the order of R269, none while one is missing. -/
def Mod.inputs (m : Mod) (g k : Nat) (r : Round) (own : Option (List Byte)) : Option (List (List Byte)) :=
  let kids := (m.gChildren g).map (fun p => (r.held.find? (fun x => decide (x.port = p ∧ x.k = k))).map (·.bytes))
  let all := if m.gMember g then own :: kids else kids
  if all.all (·.isSome) && !all.isEmpty then some (all.filterMap id) else none

/-- A chunk combined and sent on (R269 to R271). -/
def Mod.upChunk (m : Mod) (g k : Nat) (r : Round) : Mod :=
  if k ≠ r.sent ∨ r.chunks ≤ k ∨ (m.gMember g = true ∧ m.gRoot g = false ∧ r.passed + 64 ≤ k) then m
  else
    let q := match r.desc with
      | some d => if m.gMember g then m.coRead d.co (d.src + 512 * k) 512 else (m, none)
      | none => (m, none)
    let lost := m.gMember g && r.desc.isSome && q.2.isNone
    if lost then q.1.failRound g 5 r
    else
      match q.1.inputs g k r q.2 with
      | none => m
      | some ins =>
        let m := q.1.countChorus g 1 1
        let root := m.gRoot g
        match combine (m.gFmt g) (m.gRedop g) (if root then 0 else 1) ins with
        | none => m.failRound g 0x15 r
        | some bs =>
          let r := { r with held := r.held.filter (fun x => decide (x.port = 48 ∨ x.k ≠ k)), sent := r.sent + 1 }
          if root then
            let w := m.memberWrite g k r bs
            let m := w.1.sendDown 12 g k 0 r bs
            let r := { r with passed := r.passed + 1, written := r.written + w.2 }
            m.afterChunk g r (decide (r.chunks ≤ r.passed))
          else (m.sendGroup (m.gParent g) (m.groupFrame 11 g k 0 r bs)).setRound g (some r)

/-- CHORUS_CHUNK (R269 to R272): the downward chunk k in its turn, or the node's own. -/
def Mod.chorusChunk (m : Mod) (g k : Nat) : Mod :=
  match m.round g with
  | none => m
  | some r =>
    let down := decide (r.fail = 0 ∧ k = r.passed) && !m.gRoot g && (heldDown r k).isSome
    if !m.gChorus g || m.groupWaits g (!down) then m
    else if r.fail ≠ 0 then m.failRound g r.fail r
    else if k = r.passed ∧ m.gRoot g = false then
      match heldDown r k with
      | some c => m.downChunk 12 g k r c
      | none => m.upChunk g k r
    else m.upChunk g k r

/-- ROUND_ABANDON (R272). -/
def Mod.roundAbandon (m : Mod) (g : Nat) : Mod :=
  match m.round g with
  | none => m
  | some r => if m.gChorus g && m.groupWaits g true then m else m.failRound g 0x13 r

/-- LEDGER_ADDITION (R265): what is owed to a ledger is added, modulo 2^32. -/
def Mod.ledgerAdd (m : Mod) (c l : Nat) : Mod :=
  let k := c * 4096 + l
  let n := mget 0 m.ledAdds k
  { m with ledAdds := merase m.ledAdds k }.put ⟨ledgerOff c l, 31, 0⟩ (m.get ⟨ledgerOff c l, 31, 0⟩ + n)

end Sys2Proof.Machine
end

