-- ==== Sys2Proof/Machine/Image.lean ====
section
/-! DEFINITION. A production image and the checks of its load (R165 to R167, R219, R221, R266, R293 to R299, R314). -/

namespace Sys2Proof.Machine

/-! The company's logical grid (R296, R363). -/

/-- The mesh rows of a company's rectangle that are in service, from the north. -/
def Mod.gridRows (m : Mod) (c : Nat) : List Nat :=
  (List.range 128).filter (fun my => decide (m.get (cdFy0 c) * 16 ≤ my ∧ my < m.get (cdFy1 c) * 16 + 16) &&
    !m.rowOut (my / 16 * 9 + m.get (cdFx0 c)) (my % 16))

def Mod.gridCols (m : Mod) (c : Nat) : Nat := (m.get (cdFx1 c) + 1 - m.get (cdFx0 c)) * 24

/-- What the checks and the loader know of the company: its grid and the header's extent. -/
structure Grid where
  fx0 : Nat
  cols : Nat
  rows : List Nat
  gx : Nat
  gy : Nat
deriving DecidableEq, Repr

/-- The field and logical cell of production coordinates (R296). -/
def Grid.cell (g : Grid) (px py : Nat) : Nat × Nat :=
  let my := (g.rows[py]?).getD 0
  (my / 16 * 9 + g.fx0 + px / 24, my % 16 * 24 + px % 24)

/-- The production's cells, px fastest (R294, R296). -/
def Grid.coords (g : Grid) : List (Nat × Nat) := (List.range g.gy).flatMap (fun py => (List.range g.gx).map (fun px => (px, py)))

def Grid.cells (g : Grid) : List (Nat × Nat) := g.coords.map (fun p => g.cell p.1 p.2)

def Grid.isIn (g : Grid) (px py : Nat) : Bool := decide (px < g.gx ∧ py < g.gy)

/-- The company cell next to production coordinates in a direction. -/
def Grid.next (g : Grid) (px py dir : Nat) : Option (Nat × Nat) :=
  match dir with
  | 0 => if py = 0 then none else some (px, py - 1)
  | 1 => if px + 1 < g.cols then some (px + 1, py) else none
  | 2 => if py + 1 < g.rows.length then some (px, py + 1) else none
  | _ => if px = 0 then none else some (px - 1, py)

/-! The header and the sections (Tables 12-8 and 12-9). -/
def hdrGx (b : List Byte) : Nat := le b 0x14 2
def hdrGy (b : List Byte) : Nat := le b 0x16 2
def hdrScenes (b : List Byte) : Nat := le b 0x18 2
def hdrSects (b : List Byte) : Nat := le b 0x1A 2
def hdrGroups (b : List Byte) : Nat := le b 0x1C 2
def hdrSlot (b : List Byte) : Nat := le b 0x20 8
def hdrMap (b : List Byte) : Nat := le b 0x28 8
def hdrArg (b : List Byte) : Nat := le b 0x30 8
def hdrTable (b : List Byte) : Nat := le b 0x38 8

def zeros (b : List Byte) (a n : Nat) : Bool := (slice b a n).all (fun x => decide (x = 0))

structure Sect where
  i : Nat
  type : Nat
  unit : Nat
  rsv : Nat
  crc : Nat
  off : Nat
  bytes : Nat
  target : Word
deriving DecidableEq, Repr

def sectOf (img : List Byte) (i : Nat) : Sect :=
  let b := slice img (hdrTable img + 32 * i) 32
  ⟨i, le b 0 1, le b 1 1, le b 2 2, le b 4 4, le b 8 8, le b 16 8, BitVec.ofNat 64 (le b 24 8)⟩

def sectsOf (img : List Byte) : List Sect := (List.range (hdrSects img)).map (sectOf img)

def Sect.data (s : Sect) (img : List Byte) : List Byte := slice img s.off s.bytes

def Sect.scene (s : Sect) : Nat := bits s.target 7 0
def Sect.entry (s : Sect) : Nat := bits s.target 63 32

def sceneSect (ss : List Sect) (n : Nat) : Option Sect := ss.find? (fun s => decide (s.type = 3 ∧ s.scene = n))

/-- INFO of a load refusal (Table 12-7). -/
def loadInfo (sec scene grp px py : Nat) : Word :=
  BitVec.ofNat 64 (sec % 2 ^ 16 + scene % 256 * 2 ^ 16 + grp % 256 * 2 ^ 24 + px % 256 * 2 ^ 32 + py % 128 * 2 ^ 40)

def noSect : Nat := 0xFFFF

/-- Check 0x0202 on the header; `n`: the cue's IMAGE_BYTES. -/
def headerOk (b : List Byte) (n : Nat) : Bool :=
  decide (256 ≤ n ∧ le b 0 4 = 0xA17E0001 ∧ le b 4 2 = 1 ∧ le b 8 8 = n ∧ n % 64 = 0 ∧ 0x0A ≤ le b 6 1) &&
    decide (le b 0x10 4 = (crc32 (slice b 0x14 0xEC)).toNat) && zeros b 7 1 && zeros b 0x1E 2 && zeros b 0x40 192 &&
    decide (1 ≤ hdrGx b ∧ hdrGx b ≤ 216 ∧ 1 ≤ hdrGy b ∧ hdrGy b ≤ 128 ∧ 1 ≤ hdrSects b ∧ hdrSects b ≤ 4096 ∧ hdrGroups b ≤ 1024) &&
    decide (hdrSlot b % 0x200000 = 0 ∧ hdrMap b % 64 = 0 ∧ hdrArg b % 64 = 0 ∧ hdrTable b % 64 = 0) &&
    decide (hdrTable b + 32 * hdrSects b ≤ n)

/-- Bits of TARGET that a section's type leaves unassigned, and STRATUM's alignment, hold zero. -/
def targetOk (s : Sect) : Bool :=
  match s.type with
  | 1 => decide (bits s.target 63 48 = 0)
  | 2 => decide (bits s.target 63 48 = 0 ∧ bits s.target 5 0 = 0)
  | 3 => decide (bits s.target 31 9 = 0)
  | _ => decide (s.target = 0)

/-- Check 0x0202 on a section table entry. -/
def sectOk (n : Nat) (s : Sect) : Bool :=
  decide (1 ≤ s.type ∧ s.type ≤ 5 ∧ s.rsv = 0 ∧ (s.type = 1 ∨ s.unit = 0) ∧ s.off % 64 = 0 ∧
    s.bytes % (if s.type < 4 then 64 else 8) = 0 ∧ s.off + s.bytes ≤ n) && targetOk s

abbrev Refusal? := Option (Nat × Word)

def refuse (b : Bool) (code : Nat) (info : Word) : Refusal? := if b then some (code, info) else none

/-- Checks 0x0202 of step 2 of Table 12-12. -/
def check202 (img : List Byte) (n : Nat) : Refusal? :=
  if !headerOk img n then some (0x202, loadInfo noSect 0 0 0 0)
  else ((sectsOf img).find? (fun s => !sectOk n s)).map (fun s => (0x202, loadInfo s.i 0 0 0 0))

/-- Whether bytes at a company offset lie within SLOT_BYTES of one slot. -/
def Mod.inSlot (m : Mod) (c off n slot : Nat) : Bool :=
  decide (off / m.slotSize < (m.coFields c).length ∧ off % m.slotSize + n ≤ slot)

def rangesMeet (a n b k : Nat) : Bool := decide (a < b + k ∧ b < a + n)

/-- Check 0x0205. -/
def Mod.check205 (m : Mod) (c : Nat) (img : List Byte) : Refusal? :=
  let none' := loadInfo noSect 0 0 0 0
  let k := hdrScenes img
  let store := if 1 ≤ k ∧ k ≤ 256 then sceneStore k else 0
  let slot := hdrSlot img
  let mapN := 0x180 + 2 * hdrGroups img
  let bad := fun (s : Sect) =>
    let o := bits s.target 47 0
    !m.inSlot c o s.bytes slot || rangesMeet o s.bytes (hdrMap img) mapN || rangesMeet o s.bytes (hdrArg img) 32
  if m.slotSize < slot + store then some (0x205, none')
  else if m.get (encMode c) = 1 ∧ m.slotSize < slot + store + m.stagingBytes c then some (0x205, none')
  else if !m.inSlot c (hdrMap img) mapN slot || !m.inSlot c (hdrArg img) 32 slot then some (0x205, none')
  else ((sectsOf img).find? (fun s => decide (s.type = 2) && bad s)).map (fun s => (0x205, loadInfo s.i 0 0 0 0))

/-- Check 0x0206. -/
def check206 (img : List Byte) : Refusal? :=
  let k := hdrScenes img
  let ss := (sectsOf img).filter (fun s => decide (s.type = 3))
  let size := hdrGx img * hdrGy img * 2080
  if k < 1 ∨ 256 < k then some (0x206, loadInfo noSect 0 0 0 0)
  else
    match ss.find? (fun s => decide (k ≤ s.scene ∨ s.bytes ≠ size ∨ s.entry % 4 ≠ 0 ∨ 0x30000 ≤ s.entry)) with
    | some s => some (0x206, loadInfo s.i s.scene 0 0 0)
    | none =>
      ((List.range k).find? (fun n => decide ((ss.filter (fun s => decide (s.scene = n))).length ≠ 1))).map
        (fun n => (0x206, loadInfo noSect n 0 0 0))

/-! Rigging plans (R166, R167). -/

def dirInmap (b : List Byte) (i t : Nat) : Nat := le b (0x40 + i * 16 + t) 1
def dirOut (b : List Byte) (o t : Nat) : Nat := le b (0x80 + o * 16 + t) 1
def planPort (b : List Byte) (k : Nat) : Nat := le b (0xC0 + 2 * k) 2

def inmapOk (e : Nat) : Bool := if 128 ≤ e then decide (e / 16 % 8 = 0) else decide (e = 0)
def outOk (e : Nat) : Bool := if 128 ≤ e then decide (e % 128 < 80) else decide (e = 0)

/-- A stream port's entry; an output port's queue is local. -/
def portOk (e : Nat) : Bool :=
  if 2 ^ 15 ≤ e then decide (e / 128 % 128 = 0 ∧ e % 128 < 80 ∧ (e / 2 ^ 14 % 2 = 0 ∨ 64 ≤ e % 128)) else decide (e = 0)

/-- Operands (A, B, C) and destinations (D0, D1) that a steering unit's KIND uses (R166). -/
def steerUses (k : Nat) : List Bool × List Bool :=
  match k with
  | 1 => ([true, false, true], [true, true])
  | 2 => ([true, true, true], [true, false])
  | 3 => ([true, true, false], [true, false])
  | _ => ([true, false, false], [true, true])

def destOk (used : Bool) (d : Nat) : Bool :=
  if used then decide (d / 16 % 8 = 0 ∧ (d < 128 ∨ d % 16 = 0)) else decide (d = 0)

/-- One steering unit's 16 bytes (R166, check 7). -/
def steerOk (s : List Byte) : Bool :=
  let k := le s 0 1 % 8
  if k = 0 then zeros s 0 16
  else
    let u := steerUses k
    decide (k ≤ 4 ∧ le s 0 1 / 16 = 0) && zeros s 7 9 && decide (k ≤ 2 ∨ le s 6 1 = 0) &&
      (List.range 3).all (fun j => if (u.1[j]?).getD false then decide (le s (1 + j) 1 < 80) else decide (le s (1 + j) 1 = 0x7F)) &&
      (List.range 2).all (fun j => destOk ((u.2[j]?).getD false) (le s (4 + j) 1))

def planSteer (b : List Byte) (u : Nat) : List Byte := slice b (0x100 + 16 * u) 16

/-- Checks 1 and 7 of one plan. -/
def planForm (scene : Nat) (b : List Byte) : Bool :=
  decide (le b 0 2 = 0xA6E7 ∧ le b 2 1 = scene ∧ le b 3 1 < 2) && decide (le b 4 4 = (crc32 (slice b 8 0x7F8)).toNat) &&
    zeros b 0x18 40 && zeros b 0xE0 32 && zeros b 0x180 1664 && (decide (le b 3 1 = 1) || zeros b 8 0x7F8) &&
    (List.range 64).all (fun k => inmapOk (le b (0x40 + k) 1)) && (List.range 64).all (fun k => outOk (le b (0x80 + k) 1)) &&
    (List.range 16).all (fun k => portOk (planPort b k)) && (List.range 8).all (fun u => steerOk (planSteer b u))

def toSet (l : List Nat) : List Nat := l.foldl sadd []

/-- The queues that an output's slots name. -/
def outQueues (b : List Byte) (o : Nat) : List Nat :=
  toSet ((List.range 16).filterMap (fun t => if 128 ≤ dirOut b o t then some (dirOut b o t % 128) else none))

def portQueues (b : List Byte) (output : Bool) : List Nat :=
  (List.range 16).filterMap (fun k =>
    let e := planPort b k
    if 2 ^ 15 ≤ e ∧ (e / 2 ^ 14 % 2 = 1) = (output = true) then some (e % 128) else none)

def steerIns (b : List Byte) (u : Nat) : List Nat :=
  let s := planSteer b u
  let k := le s 0 1 % 8
  if k = 0 then [] else (List.range 3).filterMap (fun j => if ((steerUses k).1[j]?).getD false then some (le s (1 + j) 1) else none)

def steerOuts (b : List Byte) (u : Nat) : List Nat :=
  let s := planSteer b u
  let k := le s 0 1 % 8
  if k = 0 then []
  else (List.range 2).filterMap (fun j =>
    let d := le s (4 + j) 1
    if ((steerUses k).2[j]?).getD false && decide (d < 128) then some (64 + d % 16) else none)

/-- The consumers of a plan's queues, one entry for each (check 2). -/
def consumers (b : List Byte) : List Nat :=
  (List.range 4).flatMap (outQueues b) ++ portQueues b false ++ (List.range 8).flatMap (steerIns b)

/-- The producers of its local queues (check 3), and the link-input queues that INMAP fills. -/
def producers (b : List Byte) : List Nat := portQueues b true ++ (List.range 8).flatMap (steerOuts b)

def inQueues (b : List Byte) : List Nat :=
  toSet ((List.range 64).filterMap (fun k => let e := le b (0x40 + k) 1; if 128 ≤ e then some (k / 16 * 16 + e % 16) else none))

/-- Checks 2 to 4 of one plan. -/
def planQueues (b : List Byte) : Bool :=
  let cs := consumers b
  let ps := producers b
  decide ((toSet cs).length = cs.length) && decide ((toSet ps).length = ps.length) && decide (toSet cs = toSet (ps ++ inQueues b))

/-- Checks 5 and 6 across the link of a direction: this plan's slots, and the neighbour's entries where there is one; `seam`. -/
def linkOk (b : List Byte) (dir : Nat) (nb : Option (List Byte)) (seam : Bool) : Bool :=
  match nb with
  | none => (List.range 16).all (fun t => decide (dirOut b dir t < 128 ∧ dirInmap b dir t < 128))
  | some x =>
    let i := (dir + 2) % 4
    let val := fun (e : Nat) => decide (128 ≤ e)
    if seam then
      (List.range 8).all (fun p => decide (dirOut b dir (2 * p) = dirOut b dir (2 * p + 1)) &&
        val (dirOut b dir (2 * p)) == val (dirInmap x i (2 * p)) && !val (dirInmap x i (2 * p + 1)))
    else (List.range 16).all (fun t => val (dirOut b dir t) == val (dirInmap x i t))

def zeroPlan : List Byte := []

/-- The plan of a company cell in a scene's data: outside the production it takes no part (R296). -/
def Grid.plan (g : Grid) (d : List Byte) (px py : Nat) : List Byte :=
  if g.isIn px py then slice d ((py * g.gx + px) * 2048) 2048 else zeroPlan

/-- Check 0x0207 of a production cell. A neighbour outside the production owns no slot that could feed this cell. -/
def Grid.planOk (g : Grid) (scene : Nat) (d : List Byte) (px py : Nat) : Bool :=
  let b := g.plan d px py
  planForm scene b && planQueues b &&
    (List.range 4).all (fun dir =>
      match g.next px py dir with
      | none => linkOk b dir none false
      | some q =>
        let seam := decide ((g.cell px py).1 ≠ (g.cell q.1 q.2).1)
        linkOk b dir (some (g.plan d q.1 q.2)) seam &&
          (g.isIn q.1 q.2 || (List.range 16).all (fun t => decide (dirInmap b dir t < 128))))

/-- The first scene and cell that a check refuses. -/
def Grid.scan (g : Grid) (img : List Byte) (code : Nat) (ok : Nat → List Byte → Nat → Nat → Bool) : Refusal? :=
  (List.range (hdrScenes img)).findSome? (fun n =>
    match sceneSect (sectsOf img) n with
    | none => none
    | some s =>
      let d := s.data img
      (g.coords.find? (fun p => !ok n d p.1 p.2)).map (fun p => (code, loadInfo s.i n 0 p.1 p.2)))

/-! Aside maps (R219 to R221). -/

/-- Production coordinates of a field and cell in production form (R295). -/
def prodCoord (pf l : Nat) : Nat × Nat := (pf % 9 * 24 + l % 24, pf / 9 * 16 + l / 24)

def Grid.asideOk (g : Grid) (d : List Byte) (px py : Nat) : Bool :=
  let b := g.plan d px py
  let mp := slice d (g.gx * g.gy * 2048 + (py * g.gx + px) * 32) 32
  zeros b 8 7 && zeros b 16 7 &&
    (List.range 8).all (fun ch =>
      let e := le mp (4 * ch) 4
      let on := decide (2 ^ 31 ≤ e)
      decide (e % 2 ^ 12 = 0) && on == decide (le b 0x17 1 / 2 ^ ch % 2 = 1) &&
        (!on ||
          let q := prodCoord (e / 2 ^ 24 % 128) (e / 2 ^ 15 % 512)
          decide (e / 2 ^ 15 % 512 < 384 ∧ q.1 < g.cols ∧ q.2 < g.rows.length) &&
            decide (le (g.plan d q.1 q.2) 0x0F 1 / 2 ^ (e / 2 ^ 12 % 8) % 2 = 1)))

/-! CELL, RELOC and SEED sections (R294, R295). -/
def Sect.x0 (s : Sect) : Nat := bits s.target 25 18
def Sect.x1 (s : Sect) : Nat := bits s.target 33 26
def Sect.y0 (s : Sect) : Nat := bits s.target 40 34
def Sect.y1 (s : Sect) : Nat := bits s.target 47 41
def Sect.byte (s : Sect) : Nat := bits s.target 17 0

def Grid.cellSectOk (g : Grid) (s : Sect) : Bool :=
  decide (s.unit ≤ 8 ∧ s.x0 ≤ s.x1 ∧ s.y0 ≤ s.y1 ∧ s.x1 < g.gx ∧ s.y1 < g.gy ∧ s.byte + s.bytes ≤ unitBytes s.unit)

/-- The 8-byte entries of a RELOC or SEED section. -/
def Sect.words (s : Sect) (img : List Byte) : List Word := bytesWords (s.data img)

/-- Whether a word is a relocatable address word inside the grid (R295). -/
def Grid.relocatable (g : Grid) (w : Word) : Bool :=
  let q := prodCoord (bits w 46 40) (bits w 39 31)
  decide (faDev w = 0 ∧ faSpace w = 1 ∧ bits w 47 47 = 0 ∧ bits w 26 18 = 0 ∧ bits w 39 31 < 384) && g.isIn q.1 q.2 &&
    decide (faByte w < unitBytes (faUnit w))

def Grid.relocOk (g : Grid) (img : List Byte) (e : Word) : Bool :=
  let i := bits e 11 0
  let o := bits e 47 12
  decide (bits e 63 48 = 0 ∧ i < hdrSects img) &&
    (let s := sectOf img i
     decide ((s.type = 1 ∨ s.type = 2) ∧ o % 8 = 0 ∧ o + 8 ≤ s.bytes) &&
       g.relocatable (BitVec.ofNat 64 (le img (s.off + o) 8)))

def Grid.seedOk (g : Grid) (e : Word) : Bool := decide (bits e 63 51 = 0 ∧ bits e 50 47 ≤ 6) && g.isIn (bits e 39 32) (bits e 46 40)

def firstBad (img : List Byte) (ty code : Nat) (ok : Sect → Bool) : Refusal? :=
  ((sectsOf img).find? (fun s => decide (s.type = ty) && !ok s)).map (fun s => (code, loadInfo s.i 0 0 0 0))

/-! Groups (R266, R299, R314). -/

/-- A group list entry: its house number, bytes 2 to 15, the two words of its entry. -/
def grpNum (gl : List Byte) (i : Nat) : Nat := le gl (32 * i) 2
def grpLo (gl : List Byte) (i : Nat) : Word := BitVec.ofNat 64 (le gl (32 * i + 16) 8)
def grpHi (gl : List Byte) (i : Nat) : Word := BitVec.ofNat 64 (le gl (32 * i + 24) 8)

/-- Group entries that a company's production holds, or the load under way (Table 12-12, step 4). -/
def Mod.heldGroups (m : Mod) (c : Nat) : List Nat :=
  match (m.co c).prod with
  | some p => p.groups
  | none =>
    match (m.co c).loading with
    | some g => (List.range (hdrGroups g.image)).map (grpNum g.groups)
    | none => []

def Mod.groupRes (m : Mod) (c : Nat) : Nat := if m.isSet (cdEn c) then m.get (csGroups c) else 0

def sumOver (f : Nat → Nat) : Nat := (allCos.map f).foldl (· + ·) 0

/-- VALID entries that no production holds: host software's. -/
def Mod.hostGroups (m : Mod) : Nat :=
  let held := allCos.flatMap m.heldGroups
  ((List.range 1024).filter (fun g => m.gValid g && !shas held g)).length

/-- A company's free group entries (R314). -/
def Mod.freeGroups (m : Mod) (c : Nat) : Nat :=
  let held := fun d => (m.heldGroups d).length
  (m.groupRes c - held c) +
    (1024 - sumOver m.groupRes - m.hostGroups - sumOver (fun d => held d - m.groupRes d))

/-- Check 0x020E of an entry. -/
def Mod.groupOk (m : Mod) (c : Nat) (gl : List Byte) (i : Nat) : Bool :=
  let lo := grpLo gl i
  let hi := grpHi gl i
  let chorus := bit lo 62
  zeros gl (32 * i + 2) 14 && decide (bits hi 41 0 = 0 ∧ bits hi 47 46 ≤ 2 ∧ bits hi 45 42 ≤ 3) && bit lo 63 &&
    (chorus || decide (bits hi 47 42 = 0)) && (bit lo 61 || bit lo 60 || decide (bits lo 47 0 ≠ 0)) &&
    decide (bits hi 63 48 = m.get (sjJob c) ∧ bits hi 63 48 ≠ 0) && m.portFitted (bits lo 53 48) &&
    (List.range 48).all (fun p => !bit lo p || m.portFitted p) && (bit lo 60 || m.portFitted (bits lo 59 54))

/-- Groups homed on a port's engine. -/
def Mod.homed (m : Mod) (p : Nat) : Nat := ((List.range 1024).filter (fun g => m.gValid g && decide (m.gHome g = p))).length

/-- Checks 0x020C to 0x020F, in order; `n`: the cue's NGROUPS. -/
def Mod.checkGroups (m : Mod) (c : Nat) (img gl : List Byte) (n : Nat) : Refusal? :=
  let is := List.range n
  let nums := is.map (grpNum gl)
  let inUse := fun i =>
    let g := grpNum gl i
    decide (1024 ≤ g) || m.gValid g || (List.range i).any (fun j => decide (grpNum gl j = g))
  let full := fun i =>
    let p := bits (grpLo gl i) 53 48
    decide (64 < m.homed p + ((is.take (i + 1)).filter (fun j => decide (bits (grpLo gl j) 53 48 = p))).length)
  if n ≠ hdrGroups img ∨ m.freeGroups c < nums.length then some (0x20C, loadInfo noSect 0 0 0 0)
  else
    ((is.find? inUse).map (fun i => (0x20D, loadInfo noSect 0 i 0 0))).orElse (fun _ =>
      ((is.find? (fun i => !m.groupOk c gl i)).map (fun i => (0x20E, loadInfo noSect 0 i 0 0))).orElse (fun _ =>
        (is.find? full).map (fun i => (0x20F, loadInfo noSect 0 i 0 0))))

/-! The checks together (Table 12-12, R298). -/

def Mod.grid (m : Mod) (c : Nat) (img : List Byte) : Grid := ⟨m.get (cdFx0 c), m.gridCols c, m.gridRows c, hdrGx img, hdrGy img⟩

/-- Checks 0x0202 to 0x0206 (step 2). -/
def Mod.checkHeader (m : Mod) (c : Nat) (img : List Byte) (n : Nat) : Refusal? :=
  let g := m.grid c img
  (check202 img n).orElse (fun _ =>
    (refuse (decide (bits (m.reg 4) 15 8 < le img 6 1)) 0x203 (loadInfo noSect 0 0 0 0)).orElse (fun _ =>
      (refuse (decide (g.cols < g.gx ∨ g.rows.length < g.gy)) 0x204 (loadInfo noSect 0 0 0 0)).orElse (fun _ =>
        (m.check205 c img).orElse (fun _ => check206 img))))

/-- Every section's CRC (step 3). -/
def crcCheck (img : List Byte) (code : Nat) : Refusal? :=
  ((sectsOf img).find? (fun s => decide ((crc32 (s.data img)).toNat ≠ s.crc))).map (fun s => (code, loadInfo s.i 0 0 0 0))

/-- Checks 0x0207 to 0x020F (step 3). -/
def Mod.checkSections (m : Mod) (c : Nat) (img gl : List Byte) (ng : Nat) : Refusal? :=
  let g := m.grid c img
  (crcCheck img 0x202).orElse (fun _ =>
    (g.scan img 0x207 g.planOk).orElse (fun _ =>
      (g.scan img 0x208 (fun _ => g.asideOk)).orElse (fun _ =>
        (firstBad img 1 0x209 g.cellSectOk).orElse (fun _ =>
          (firstBad img 4 0x20A (fun s => (s.words img).all (g.relocOk img))).orElse (fun _ =>
            (firstBad img 5 0x20B (fun s => (s.words img).all g.seedOk)).orElse (fun _ => m.checkGroups c img gl ng))))))

/-- A load's check pass: the refusal, if any. A read that fails (`rd.ok` false) is one past the bytes returned; it comes after
the checks of step 2 where the header and the table were read. -/
def Mod.checkLoad (m : Mod) (c : Nat) (rd : ImageRead) (n ng : Nat) : Refusal? :=
  let img := rd.image
  if rd.ok then (m.checkHeader c img n).orElse (fun _ => m.checkSections c img rd.groups ng)
  else if img.length < 256 then some (0x103, 0)
  else if headerOk img n && decide (img.length < hdrTable img + 32 * hdrSects img) then some (0x103, 0)
  else (m.checkHeader c img n).orElse (fun _ => some (0x103, 0))

end Sys2Proof.Machine
end

