-- ==== Sys2Proof/Machine/Loader.lean ====
section
/-! DEFINITION. The loader (R27, R56, R185, R265, R294 to R298, R374): what a load whose checks have passed puts into the module, a load
that fails, and an unload (R31, R291). -/

namespace Sys2Proof.Machine

/-! Reads of the image (R281, R279). -/

/-- Host reads of `n` bytes in requests of at most 512. -/
def Mod.hostReads (m : Mod) (c : Nat) (a : Word) (n : Nat) : Mod :=
  m.each (List.range (ceilDiv n 512)) (fun m i => m.hostRead c (a + BitVec.ofNat 64 (512 * i)) (Nat.min 512 (n - 512 * i)))

/-- The reads of an image's sections (R298). -/
def Mod.readSections (m : Mod) (c : Nat) (a : Word) (img : List Byte) : Mod :=
  m.each (sectsOf img) (fun m s => m.hostReads c (a + BitVec.ofNat 64 s.off) s.bytes)

/-- The reads of steps 2 and 3 (Table 12-12): the header; the section table, where the header is good; the sections and the group list,
where the checks of step 2 pass. -/
def Mod.loadReads (m : Mod) (c : Nat) (a gl : Word) (img : List Byte) (n ng : Nat) : Mod :=
  let m := m.hostReads c a 256
  if !headerOk img n then m
  else
    let m := m.hostReads c (a + BitVec.ofNat 64 (hdrTable img)) (32 * hdrSects img)
    if (m.checkHeader c img n).isSome then m else (m.readSections c a img).hostReads c gl (32 * ng)

/-! Relocation (R295). -/

/-- A relocatable word against the module; `fe`: against the encore field (R374). -/
def Grid.relocate (g : Grid) (dev : Nat) (fe : Option Nat) (w : Word) : Word :=
  let q := prodCoord (bits w 46 40) (bits w 39 31)
  let t := g.cell q.1 q.2
  setBits (setBits (setBits w 63 52 dev) 46 40 (fe.getD t.1)) 39 31 t.2

/-- A section's data with the relocations that name it applied. -/
def Mod.sectData (m : Mod) (g : Grid) (img : List Byte) (fe : Option Nat) (s : Sect) : List Byte :=
  let rel := ((sectsOf img).filter (fun r => decide (r.type = 4))).flatMap (fun r => r.words img)
  (rel.filter (fun e => decide (bits e 11 0 = s.i))).foldl (fun d e =>
    let o := bits e 47 12
    patch d o (toLe (g.relocate (m.get devNum) fe (BitVec.ofNat 64 (le d o 8))).toNat 8)) (s.data img)

/-- An aside map with its valid entries relocated (R220, R295). -/
def Grid.relocateMap (g : Grid) (fe : Option Nat) (mp : List Byte) : List Byte :=
  (List.range 8).flatMap (fun ch =>
    let e := le mp (4 * ch) 4
    if e < 2 ^ 31 then toLe e 4
    else
      let q := prodCoord (e / 2 ^ 24 % 128) (e / 2 ^ 15 % 512)
      let t := g.cell q.1 q.2
      toLe (2 ^ 31 + (fe.getD t.1) * 2 ^ 24 + t.2 * 2 ^ 15 + e % 2 ^ 15) 4)

/-! Cells. -/

/-- A cell at a production load or a partition reset: zero memories, engines in their reset state, SR state 1, no fly
tag's status (R56, R75, R86, R127, R139, R147, R174, R204, R224). -/
def Cell.wipe (c : Cell) : Cell :=
  let c := c.srOne.contextReset.zeroFill
  { c with fly := { c.fly with words := [] } }

/-- A core's stochastic-rounding state from a seed (R75). -/
def Cell.seed (c : Cell) (u : Nat) (v : Word32) : Cell :=
  let v := if v = 0 then 1 else v
  if u = 6 then { c with vec := { c.vec with sr := v, srInit := v } }
  else c.setMat u { c.mat u with sr := v, srInit := v }

/-- Whether the mode's field may hold a second copy of the production (R374). -/
def Mod.feFor (m : Mod) (c : Nat) (cells : List (Nat × Nat)) : Option Nat :=
  let fe := m.get (encField c)
  let f0 := (cells.head?).elim 72 (·.1)
  if m.get (encMode c) = 1 ∧ cells.all (fun q => decide (q.1 = f0)) = true ∧ f0 ≠ fe ∧ fe / 9 = f0 / 9 ∧
      shas (m.coFields c) fe = true then some fe else none

/-- A CELL section put into every target cell (R294), and into the encore field's (R374). -/
def Mod.putCells (m : Mod) (g : Grid) (img : List Byte) (fe : Option Nat) (s : Sect) : Mod :=
  let ps := g.coords.filter (fun p => decide (s.x0 ≤ p.1 ∧ p.1 ≤ s.x1 ∧ s.y0 ≤ p.2 ∧ p.2 ≤ s.y1))
  let d := m.sectData g img none s
  let m := m.each ps (fun m p => let t := g.cell p.1 p.2; m.modCell t.1 t.2 (fun c => c.write s.unit s.byte d))
  match fe with
  | none => m
  | some f =>
    let d := m.sectData g img fe s
    m.each ps (fun m p => m.modCell f (g.cell p.1 p.2).2 (fun c => c.write s.unit s.byte d))

/-- A scene's plans and aside maps put into the scene stores (R185, R294, R374). -/
def Mod.putScene (m : Mod) (g : Grid) (img : List Byte) (fe : Option Nat) (s : Sect) : Mod :=
  let d := s.data img
  let one := fun (fe : Option Nat) (p : Nat × Nat) =>
    g.plan d p.1 p.2 ++ g.relocateMap fe (slice d (g.gx * g.gy * 2048 + (p.2 * g.gx + p.1) * 32) 32)
  let m := m.each g.coords (fun m p => let t := g.cell p.1 p.2; m.setPlan s.scene t.1 t.2 (one none p))
  match fe with
  | none => m
  | some f => m.each g.coords (fun m p => m.setPlan (256 + s.scene) f (g.cell p.1 p.2).2 (one fe p))

/-- A SEED section's entries. -/
def Mod.putSeeds (m : Mod) (g : Grid) (img : List Byte) (fe : Option Nat) (s : Sect) : Mod :=
  m.each (s.words img) (fun m e =>
    let t := g.cell (bits e 39 32) (bits e 46 40)
    let f := fun (c : Cell) => c.seed (bits e 50 47) (BitVec.ofNat 32 (bits e 31 0))
    let m := m.modCell t.1 t.2 f
    match fe with
    | none => m
    | some x => m.modCell x t.2 f)

/-- The company map (Table 12-11). -/
def Mod.companyMap (m : Mod) (c : Nat) (g : Grid) (groups : List Nat) : List Byte :=
  toLe (m.get devNum) 2 ++ toLe m.layers 1 ++ toLe (33 + m.layers) 1 ++ toLe g.gx 2 ++ toLe g.gy 2 ++ toLe (m.get (sjJob c)) 2 ++
    toLe groups.length 2 ++ toLe 0 4 ++
    (List.range 16).flatMap (fun i => toLe (if i < ceilDiv g.gx 24 then g.fx0 + i else 0xFF) 1) ++
    (List.range 128).flatMap (fun py =>
      let my := (g.rows[py]?).getD 0
      toLe (if py < g.gy then my % 16 + my / 16 * 256 else 0xFFFF) 2) ++
    (List.range 72).flatMap (fun f => toLe (if shas (m.coFields c) f then m.slotOf c f else 0xFF) 1) ++ toLe 0 24 ++
    groups.flatMap (fun k => toLe k 2)

/-! Releasing a production (R31, R291, R298, R395). -/

/-- The scene stores of a company's fields zero-filled: the plans and aside maps in them go (R185). -/
def Mod.clearStores (m : Mod) (c : Nat) : Mod :=
  let fs := m.coFields c
  let n := m.storeBytes c
  { m with plans := m.plans.filter (fun e => !shas fs (e.1 / 384 % 72)) }.each fs (fun m f => m.zeroSlot f (m.slotSize - n) n)

/-- The group entries of a production or a load set back (R266). -/
def Mod.freeEntries (m : Mod) (c : Nat) : Mod :=
  m.each (m.heldGroups c) (fun m g =>
    { (m.setReg (groupOff g) 0).setReg (groupOff g + 8) 0 with rounds := mset none m.rounds g none, closed := mset [] m.closed g [] })

/-- A staging or a scene change gone, with no cue (R174). -/
def Mod.noChange (m : Mod) (c : Nat) : Mod := (m.put (scBusy c) 0).modCo c (fun x => { x with change := none })

/-- A production's groups, seeds (R75), aside channels, slots and scene stores released; the company EMPTY. -/
def Mod.release (m : Mod) (c : Nat) : Mod :=
  let m := (m.freeEntries c).eachCell (m.coCells c) (fun x => { x.withSeeds .zero with asideQ := [], asideGather := [] })
  let m := (m.clearStores c).noChange c
  let m := (m.modCo c (fun x => { x with prod := none, loading := none, unloading := none, installed := false, enc := .zero }))
  (m.put (scStagedValid c) 0).setCoState c stEmpty

/-- A company's asides and refusals still on the mesh at a load (R224). -/
def Mod.staleAsides (m : Mod) (c : Nat) : Mod :=
  { m with routers := m.routers.map (fun e => (e.1, e.2.map (fun p => if p.co = c then { p with body := staleBody p.body } else p))) }

/-- The cells of a company wiped. -/
def Mod.wipeCells (m : Mod) (c : Nat) : Mod := m.eachCell (m.coCells c) Cell.wipe

/-! Ends of a load. -/

/-- Bytes whose contents the manual leaves undefined (log entry 2). -/
def Mod.undefStrat (m : Mod) (c off n : Nat) : Mod :=
  m.each (List.range (n / 8)) (fun m i => let d := m.draw; d.2.coWrite c (off + 8 * i) (toLe d.1.toNat 8))

/-- A LOAD's completion, where the function is reached; else nothing is written (R437). -/
def Mod.endLoad (m : Mod) (c r status : Nat) (info : Word) (silent : Bool) : Mod :=
  if silent || !m.hostUp c then m.dropCue c r else m.doneCue c r status info

/-- A load that failed after its checks (R27, R298, R395, R437). -/
def Mod.loadFails (m : Mod) (c status : Nat) (info : Word) (silent : Bool) : Mod :=
  match (m.co c).loading with
  | none => m
  | some g =>
    let m := m.each ((sectsOf g.image).filter (fun s => decide (s.type = 2))) (fun m s => m.undefStrat c (bits s.target 47 0) s.bytes)
    ((m.wipeCells c).release c).endLoad c g.ring status info silent

/-- Ledgers of a company set to 0 (R265). -/
def Mod.zeroLedgers (m : Mod) (c : Nat) : Mod :=
  { m with
    regs := m.regs.filter (fun e => decide (e.1 < ledgerOff c 0 ∨ ledgerOff c 0 + 0x8000 ≤ e.1)) }

/-- What step 4 of Table 12-12 writes at once: the group entries, and zeros into the new scene stores. The company's cells are
zero-filled as step 5 begins: none runs in between (R291). -/
def Mod.holdEntries (m : Mod) (c : Nat) (x : Loading) : Mod :=
  (m.each (List.range (hdrGroups x.image)) (fun m i =>
    (m.setReg (groupOff (grpNum x.groups i)) (grpLo x.groups i)).setReg (groupOff (grpNum x.groups i) + 8) (grpHi x.groups i))).clearStores c

/-- Steps 4 to 6 of Table 12-12, from the zero-fill of the cells on. -/
def Mod.install (m : Mod) (c : Nat) (x : Loading) : Mod :=
  let img := x.image
  let g := m.grid c img
  let gl := x.groups
  let nums := (List.range (hdrGroups img)).map (grpNum gl)
  let m := (m.staleAsides c).wipeCells c
  let cells := g.cells
  let fe := m.feFor c cells
  let ss := sectsOf img
  let of := fun (t : Nat) => ss.filter (fun s => decide (s.type = t))
  let m := m.each (of 1) (fun m s => m.putCells g img fe s)
  let m := m.each (of 2) (fun m s => m.coWrite c (bits s.target 47 0) (m.sectData g img none s))
  let m := m.each (of 3) (fun m s => m.putScene g img fe s)
  let m := m.each (of 5) (fun m s => m.putSeeds g img fe s)
  let p : Production := {
    gx := g.gx, gy := g.gy, slotBytes := hdrSlot img, mapOff := hdrMap img, argOff := hdrArg img
    scenes := (List.range (hdrScenes img)).map (fun n =>
      match sceneSect ss n with
      | some s => (bit s.target 8, s.entry)
      | none => (false, 0))
    groups := nums, crc := le img 0x10 4, imageBytes := le img 8 8, cells := cells }
  let m := (m.coWrite c (hdrMap img) (m.companyMap c g nums)).zeroLedgers c
  let m := m.modCo c (fun y => { y with prod := some p, loading := none, loadNo := y.loadNo + 1, installed := false })
  let m := m.each (List.range 16) (fun m i => m.resetReg (coBase c + 0x300 + 8 * i))
  let m := ((m.noChange c).put (scStagedValid c) 0).put (intervalValid c) 0
  (m.put (reloadNeeded c) 0).setCoState c stLoaded

/-- Whether a rehearsal runs in a company's fields (R380). -/
def Mod.rehearses (m : Mod) (c : Nat) : Bool := (m.coFields c).any (fun f => !(m.field f).rehearsing.isEmpty)

/-- LOAD_FINISH: the second reads, and steps 4 to 6 (R298). -/
def Mod.loadFinish (m : Mod) (c : Nat) (rd : ImageRead) : Mod :=
  match (m.co c).loading with
  | none => m
  | some x =>
    if !m.prompterUp || m.rehearses c || (m.co c).reset.isSome then m
    else
    let m := m.readSections c x.at_ x.image
    if !rd.ok then m.loadFails c 0x103 0 false
    else
      match (sectsOf x.image).find? (fun s => decide ((crc32 (s.data rd.image)).toNat ≠ s.crc)) with
      | some s => m.loadFails c 0x210 (loadInfo s.i 0 0 0 0) false
      | none =>
        let img := (sectsOf x.image).foldl (fun b s => patch b s.off (s.data rd.image)) x.image
        (m.install c { x with image := img }).endLoad c x.ring 0 0 false

end Sys2Proof.Machine
end

