-- ==== Sys2Proof/Machine/Companies.lean ====
section
/-! DEFINITION. Companies (R305 to R315, R340, R459) and what resets and faults take from them: a partition's contents (R395), a
host port's reset (R437). -/

namespace Sys2Proof.Machine

/-! Shares (R306, R312 to R314). -/

/-- The sum of a share over the other enabled companies that a condition names. -/
def Mod.others (m : Mod) (c : Nat) (p : Nat → Bool) (f : Nat → Nat) : Nat :=
  sumOver (fun d => if decide (d ≠ c) && m.isSet (cdEn d) && p d then f d else 0)

/-- Whether shares keep every sum within its limit beside the other enabled companies' (R312 to R314). -/
def Mod.sharesFit (m : Mod) (c port opt host chorus groups : Nat) : Bool :=
  decide (m.others c (fun _ => true) (fun d => m.get (csOpt d)) + opt ≤ 48 ∧
    m.others c (fun d => decide (m.get (cdPort d) = port)) (fun d => m.get (csHost d)) + host ≤ 64 ∧
    m.others c (fun _ => true) (fun d => m.get (csChorus d)) + chorus ≤ 64 ∧
    m.others c (fun _ => true) (fun d => m.get (csGroups d)) + groups ≤ 1024)

/-- COMPANY_SHARE's write (R314). -/
def Mod.shareCtrl (m : Mod) (c : Nat) (v : Word) : Mod :=
  let opt := bits v 6 0
  let host := bits v 14 8
  let chorus := bits v 22 16
  let groups := bits v 42 32
  if 48 < opt ∨ 64 < host ∨ 64 < chorus ∨ 1024 < groups ∨ groups < (m.heldGroups c).length ∨
      (m.isSet (cdEn c) = true ∧ m.sharesFit c (m.get (cdPort c)) opt host chorus groups = false) then
    m.put (ctShareLost c) 1
  else m.plainWrite (coBase c + 0x808) v

/-! Enabling (R306, R307). -/

/-- The fields of the rectangle that a COMPANY_DEF value names. -/
def defFields (v : Word) : List Nat :=
  allFields.filter (fun f => decide (bits v 31 28 ≤ f % 9 ∧ f % 9 ≤ bits v 27 24 ∧ bits v 22 20 ≤ f / 9 ∧ f / 9 ≤ bits v 18 16))

/-- The conditions of R306, and bring-up done (R354). -/
def Mod.defOk (m : Mod) (c : Nat) (v : Word) : Bool :=
  let port := bits v 59 58
  let fn := bits v 57 53
  decide (m.get buStep = 9 ∧ bits v 31 28 ≤ bits v 27 24 ∧ bits v 27 24 ≤ (if m.get idFields = 0 then 8 else 7) ∧
    bits v 22 20 ≤ bits v 18 16) &&
    (defFields v).all (fun f => (m.coOf f).isNone) && decide (fn ≤ 16) && m.vfOn port fn &&
    allCos.all (fun d => decide (d = c) || !m.isSet (cdEn d) || decide (m.get (cdPort d) ≠ port ∨ m.get (cdFunc d) ≠ fn)) &&
    m.sharesFit c port (m.get (csOpt c)) (m.get (csHost c)) (m.get (csChorus c)) (m.get (csGroups c))

/-- A company enabled (R307): its fields powered and their stratum zero-filled. -/
def Mod.enableCo (m : Mod) (c : Nat) (v : Word) : Mod :=
  let fs := defFields v
  let m := m.plainWrite (coBase c + 0x800) v
  let m := m.each fs (fun m f => ((m.put (fiInCo f) 1).put (fiCo f) c).stratFill f)
  let m := ((m.put (ctNfields c) fs.length).put (ctReady c) 0).zeroLedgers c
  let m := ((m.setReg (energyCo c).off 0).modCo c (fun x => { x with remCo := 0 })).setCoState c stEmpty
  m.requestPower true fs

/-- What RO status fields of a disabled company read (R459). -/
def Mod.clearStatus (m : Mod) (c : Nat) : Mod :=
  let m := m.each [0x0, 0x110, 0x208, 0x420, 0x428] (fun m o => m.resetReg (coBase c + o))
  let keep := fun (m : Mod) (o hi lo : Nat) => m.setReg (coBase c + o) (m.reg (coBase c + o) &&& fieldMask 64 hi lo)
  keep (keep (keep m 0x108 12 12) 0x218 1 0) 0x418 3 3

/-- Tracing of a field ended (R430). -/
def Mod.traceOff (m : Mod) (f : Nat) : Mod := (m.put (tcEn f) 0).put (tsActive f) 0

/-- A company disabled: READY clears, its fields power down (R307, R340, R430). -/
def Mod.disableCo (m : Mod) (c : Nat) (v : Word) : Mod :=
  let fs := m.coFields c
  let m := m.plainWrite (coBase c + 0x800) v
  let m := m.each fs (fun m f => ((m.put (fiInCo f) 0).put (fiCo f) 0).traceOff f)
  let m := ((m.put (ctNfields c) 0).put (ctReady c) 0).clearStatus c
  (m.modCo c (fun x => { x with chorus := [], trips := [] })).requestPower false fs

/-- Whether a company may be disabled (R306). -/
def Mod.idleCo (m : Mod) (c : Nat) : Bool :=
  decide (m.coState c = stEmpty) && !m.isSet (cbEn c) && allRings.all (fun r => !m.isSet (cmdEn c r) && !m.isSet (cplEn c r))

/-- A COMPANY_DEF value with a reserved FUNC left as it was (R9, Table 13-3). -/
def Mod.defVal (m : Mod) (c : Nat) (v : Word) : Word := if 16 < bits v 57 53 then setBits v 57 53 (m.get (cdFunc c)) else v

/-- COMPANY_DEF's write (R306, R354). -/
def Mod.defCtrl (m : Mod) (c : Nat) (v : Word) : Mod :=
  let v := m.defVal c v
  m.counted (if m.isSet (cdEn c) then
    if !bit v 63 && m.idleCo c then m.disableCo c v else m.put (ctDefLost c) 1
  else if bit v 63 then (if m.defOk c v then m.enableCo c v else m.put (ctDefLost c) 1)
  else m.plainWrite (coBase c + 0x800) v)

/-- COMPANY_ENABLE (R306, R307, R310). -/
def execCompanyEnable (co : Fin 16) (src : WSrc) (v : Word) (s : State) : Host.Outcome State Fault Refusal :=
  onCo s co src (fun m => if src = .pf then m.defCtrl co v else m)

/-- COMPANY_DISABLE (R306, R307, R310). -/
def execCompanyDisable (co : Fin 16) (src : WSrc) (v : Word) (s : State) : Host.Outcome State Fault Refusal :=
  onCo s co src (fun m => if src = .pf then m.defCtrl co v else m)

/-- Whether a field has come up: its domain is on, its PLL locked, no switch to its point under way, its stratum filled (R307,
R341). -/
def Mod.fieldUp (m : Mod) (f : Nat) : Bool := m.fieldOn f && m.isSet (fcLock f) && !m.isSet (fcBusy f) && m.stratReady f

/-- COMPANY_READY (R307). -/
def execCompanyReady (co : Fin 16) (s : State) : Host.Outcome State Fault Refusal :=
  onMod s (fun m => if m.isSet (cdEn co) && (m.coFields co).all m.fieldUp then m.put (ctReady co) 1 else m)

/-- COMPANY_SHARE_WRITE (R310, R312 to R314). -/
def execCompanyShareWrite (co : Fin 16) (src : WSrc) (v : Word) (s : State) : Host.Outcome State Fault Refusal :=
  onCo s co src (fun m => if src = .pf then m.shareCtrl co v else m)

/-- DEV_NUM's write (R26, R456). -/
def Mod.devNumCtrl (m : Mod) (v : Word) : Mod :=
  if m.isSet injEn then m.put dsNumLost 1 else m.counted { m.plainWrite 0x1008 v with numSet := true }

/-- DEV_NUM_WRITE (R456). -/
def execDevNumWrite (v : Word32) (s : State) : Host.Outcome State Fault Refusal := onDev s (fun m => m.devNumCtrl (v.setWidth 64))

/-- OPP_MAP_WRITE (R342, R343). -/
def execOppMapWrite (co : Fin 16) (i : Fin 16) (src : WSrc) (v : Word) (s : State) : Host.Outcome State Fault Refusal :=
  onCo s co src (fun m => m.plainWrite (coBase co + 0x300 + 8 * i) v)

/-! Encore set-up (R372, R373, R389). -/

/-- ENC_LEN's write: the first non-zero one of a step latches the output range (R373). -/
def Mod.encLenCtrl (m : Mod) (c : Nat) (v : Word) : Mod :=
  let o := coBase c + 0x410
  let n := bits v 39 0
  if n % 64 ≠ 0 then m
  else
    match (m.co c).job, (m.co c).prod with
    | some j, some p =>
      if j.range.isSome then m.put (esCfgLost c) 1
      else if n = 0 then m.plainWrite o v
      else
        let at_ := m.get (encOut c)
        let why := if at_ + n ≤ p.slotBytes then j.why else sadd j.why 2
        let m := (m.plainWrite o v).modCo c (fun x => { x with job := some { j with range := some (at_, n), why := why } })
        m.put (esWhy c) (m.stepWhy c)
    | _, _ => m.plainWrite o v

/-- ENC_LEN_WRITE (R373). -/
def execEncLenWrite (co : Fin 16) (src : WSrc) (v : Word) (s : State) : Host.Outcome State Fault Refusal :=
  onCo s co src (fun m => m.encLenCtrl co v)

/-- ENC_CTRL's write (R389). -/
def Mod.encCtrlGo (m : Mod) (c : Nat) (v : Word) : Mod :=
  if m.coState c ≠ stEmpty ∨ (bits v 1 0 = 1 ∧ shas (m.coFields c) (bits v 28 22) = false) then m.put (esCfgLost c) 1
  else m.counted (m.plainWrite (coBase c + 0x400) v)

/-- ENC_CTRL_WRITE (R389, R310). -/
def execEncCtrlWrite (co : Fin 16) (src : WSrc) (v : Word) (s : State) : Host.Outcome State Fault Refusal :=
  onCo s co src (fun m => if src = .pf then m.encCtrlGo co v else m)

/-! A host port's reset (R404, R437, R463). -/

/-- What an assertion of PERSTp_N does to a company of the port. -/
def Mod.coHostLost (m : Mod) (c : Nat) : Mod :=
  let m := m.stopJob c 0x307 0 true
  let m := (m.pollOff c).each allRings (fun m r => ((m.ringOff c r).put (cplEn c r) 0))
  let m := m.loadFails c 0 0 true
  let m := if (m.co c).unloading.isSome then m.release c else m
  m.modCo c (fun x => { x with reset := x.reset.map (fun r => { r with silent := true }), rings := [], cpls := [], polls := 0, stale := 0 })

/-- The enabled companies bound to a host port that a condition names. -/
def Mod.cosOf (m : Mod) (hp : Nat) (p : Nat → Bool) : List Nat :=
  allCos.filter (fun c => m.isSet (cdEn c) && decide (m.get (cdPort c) = hp) && p c)

/-- PERST_ASSERT (R437): in ghost light only port 0's physical function is reset, its MSI-X table with it (log entry 47). -/
def execPerstAssert (hp : Fin 4) (s : State) : Host.Outcome State Fault Refusal :=
  onMod s (fun m =>
    if shas m.perstLow hp then m
    else
      let m := { m with perstLow := sadd m.perstLow hp }
      if m.ghost then (if hp.val = 0 then m.msixClear 0 (fun fn => decide (fn = 0)) else m)
      else
        let m := m.each (m.cosOf hp (fun _ => true)) Mod.coHostLost
        m.counted ({ m with toHost := mset [] m.toHost hp [], numVfs := mset 0 m.numVfs hp 0 }.msixClear hp (fun _ => true)))

/-- PERST_DEASSERT (R438): the port trains its link, a lost PHY clock's among them (Table 14-3); not while REFCLK is lost. -/
def execPerstDeassert (hp : Fin 4) (s : State) : Host.Outcome State Fault Refusal :=
  onMod s (fun m =>
    { m with perstLow := sdel m.perstLow hp, linkDown := if m.ghost then m.linkDown else sdel m.linkDown hp })

/-- VF_DISABLE (R463): functions n to 16 of the port stop being enabled. -/
def execVfDisable (hp : Fin 4) (n : Fin 17) (s : State) : Host.Outcome State Fault Refusal :=
  onMod s (fun m =>
    let k := n.val - 1
    let lost := m.cosOf hp (fun c => decide (k < m.get (cdFunc c) ∧ m.get (cdFunc c) ≤ mget 0 m.numVfs hp))
    m.counted (({ m with numVfs := mset 0 m.numVfs hp (Nat.min k (mget 0 m.numVfs hp)) }.each lost Mod.coHostLost).msixClear hp
      (fun fn => decide (k < fn))))

/-- VF_ENABLE (R463): functions 1 to n of the port are enabled. -/
def execVfEnable (hp : Fin 4) (n : Fin 17) (s : State) : Host.Outcome State Fault Refusal :=
  onMod s (fun m => m.counted { m with numVfs := mset 0 m.numVfs hp (Nat.max n (mget 0 m.numVfs hp)) })

end Sys2Proof.Machine
end

