-- ==== Sys2Proof/Machine/MeshStep.lean ====
section
/-! DEFINITION. Packets on the mesh, hop by hop (R206 to R213, R316, R369, R403), and what happens where they end: cell memory,
the delivery port, the fly engine, the host window (R201 to R203, R212, R222, R239, R273, R303, R401). -/

namespace Sys2Proof.Machine

/-! Holds (R273). -/

/-- A company's job put on hold by an access that named a device. -/
def Mod.hold (m : Mod) (c dev : Nat) : Mod :=
  if m.coState c = stRunning ∧ (m.co c).reset.isNone then
    (((m.setCoState c stHeld).put (holdHeld c) 1).put (holdDevice c) dev).event c evHeld
  else m

def Mod.holdFor (m : Mod) (f l : Nat) (a : Word) : Mod :=
  match m.coOf f with
  | some c => if m.isJobCell c f l then m.hold c (faDev a) else m
  | none => m

/-! Check 5 (R403, R460). -/

/-- What a packet that cannot go into a domain becomes: a request is answered with 0x04, anything else is dropped. -/
def Mod.domainOff (m : Mod) (mx my : Nat) (k : Packet) : Mod :=
  match k.body with
  | .req r => m.answer mx my (statusReply r 4) k.co
  | _ => m

/-- Whether a field's mesh takes new packets (Table 18-4). -/
def Mod.fabricTakes (m : Mod) (f : Nat) : Bool := (m.field f).fabricOn && !(m.field f).drainFabric

/-! Delivery at a router (R212, R213, R215). -/

/-- A packet at its own cell. -/
def Mod.toCell (m : Mod) (mx my f l : Nat) (k : Packet) : Mod :=
  match k.body with
  | .req r =>
    if m.cellRuns f l then m.modCell f l (fun c => { c with inbound := c.inbound ++ [r] })
    else m.domainOff mx my k
  | .rep r => if m.fieldOn f then m.replyHere f l r else m
  | .aside _ _ _ _ _ _ _ _ => if m.cellRuns f l then m.modCell f l (fun c => { c with asides := c.asides ++ [k.body] }) else m
  | .refusal _ _ => if m.cellRuns f l then m.modCell f l (fun c => { c with refusals := c.refusals ++ [k.body] }) else m

/-- A request at its field's stratum switch. -/
def Mod.toStrat (m : Mod) (mx my f : Nat) (k : Packet) : Mod :=
  match k.body with
  | .req r =>
    if m.stratReady f then m.enqueue f (m.chanOf (m.stratPlace r.co (faOff r.addr)).2) ⟨r, mx, my⟩
    else m.domainOff mx my k
  | _ => m

/-- A packet at an optical edge: a request takes a tag, a reply goes back to its device. -/
def Mod.toOptical (m : Mod) (p : Nat) (k : Packet) : Mod :=
  match k.body with
  | .req r => m.edgeReq p k r
  | .rep r =>
    match r.owner with
    | .remote dev tag bulk kind => m.inject p (m.repFrame r dev tag bulk kind (m.get (sjJob k.co)))
    | _ => m
  | _ => m

def Mod.toHostPort (m : Mod) (p mx my : Nat) (k : Packet) : Mod :=
  match k.body with
  | .req r => { m with toHost := mset [] m.toHost p (mget [] m.toHost p ++ [⟨r, mx, my⟩]) }
  | _ => m

def Mod.arrive (m : Mod) (mx my : Nat) (k : Packet) : Mod :=
  match k.dest with
  | .cell f l => m.toCell mx my f l k
  | .strat f => m.toStrat mx my f k
  | .host p => m.toHostPort p mx my k
  | .optical p => m.toOptical p k

/-! A hop (R208, R316). -/

/-- Whether a packet may begin at a router's local output: a channel's queue holds 128 requests (Table 20-2). -/
def Mod.localRoom (m : Mod) (k : Packet) : Bool :=
  match k.dest, k.body with
  | .strat f, .req r => decide ((m.chan f (m.chanOf (m.stratPlace r.co (faOff r.addr)).2)).queue.length < 128)
  | _, _ => true

/-- The index of the packet that begins next at an output (R208, R316). -/
def Mod.nextPacket (m : Mod) (key : Nat) : Option Nat :=
  let q := mget [] m.routers key
  let used := ((mget [] m.slots key).filter id).length
  let bulk := q.findIdx? (fun k => !k.control)
  if bulk.isSome && decide (8 < used) then bulk
  else
    match roundRobin (mget 0 m.served key) (fun c => q.any (fun k => k.control && decide (k.co = c))) with
    | some c => q.findIdx? (fun k => k.control && decide (k.co = c))
    | none => bulk

/-- A packet past an output: its flit slots, and the company served. -/
def Mod.begun (m : Mod) (key i : Nat) (k : Packet) : Mod :=
  let h := (List.replicate k.flits k.control ++ mget [] m.slots key).take 16
  { m with
    routers := mset [] m.routers key ((mget [] m.routers key).eraseIdx i)
    slots := mset [] m.slots key (if h.any id then h else [])
    served := if k.control then mset 0 m.served key (k.co + 1) else m.served }

/-- MESH_PACKET_HOP: the next packet of an output crosses to the next router, or ends at this one. -/
def Mod.meshHop (m : Mod) (reply : Bool) (mx my dir : Nat) : Mod :=
  let key := outKey reply mx my dir
  match m.nextPacket key with
  | none => m
  | some i =>
    match (mget [] m.routers key)[i]? with
    | none => m
    | some k =>
      if dir = 4 then (if m.localRoom k then (m.begun key i k).arrive mx my k else m)
      else
        let m' := m.begun key i k
        let t := m.nextRouter mx my dir
        if m.fabricTakes (routerField t.1 t.2) then m'.atRouter t.1 t.2 k else m'.domainOff mx my k

/-! A flit with bad parity (R369). -/

/-- A packet with one 8-byte word of its payload poisoned. -/
def poisonBody (b : Body) (w : Nat) : Body :=
  match b with
  | .req r =>
    match r.op with
    | .store v => .req { r with op := .write (toLe v.toNat 8) [0] }
    | .write bs bad => .req { r with op := .write bs (sadd bad (w % (bs.length / 8))) }
    | _ => b
  | .rep r =>
    match r.owner with
    | .scalar _ _ _ => if r.status = 0 ∧ r.bytes ≠ [] then .rep { r with status := 5, bytes := [] } else b
    | _ => if r.bytes = [] then b else .rep { r with bad := sadd r.bad (w % (r.bytes.length / 8)) }
  | .aside ch ws bad sf sl sc co cg => .aside ch ws (sadd bad (w % ws.length)) sf sl sc co cg
  | .refusal _ _ => b

/-- Whether a poisoned word leaves a request with nothing it may do: an atomic's operand (R59). -/
def poisonEnds (b : Body) : Bool :=
  match b with
  | .req r => isAtomic r.op
  | _ => false

/-- The record of a flit's parity error at a router (Table 17-1). -/
def Mod.flitRecord (m : Mod) (reply : Bool) (mx my word code : Nat) (failed : Bool) : Mod :=
  let f := routerField mx my
  let l := my % 16 * 24 + mx % 24
  let m := m.record ⟨if failed then 3 else 1, 3, 1, whereCell m f l (if reply then 13 else 12), 0x600, code, m.coOf f,
    word % 256 + ofBool failed * 2 ^ 8⟩
  if failed then m.mark f l 3 else m

/-- A request ended with uncorrectable data (R59, R369). -/
def Mod.answerOp (m : Mod) (mx my : Nat) (k : Packet) : Mod :=
  match k.body with
  | .req r => m.answer mx my (statusReply r 5) k.co
  | _ => m

/-- MESH_FLIT_PARITY_ERROR (R369): the packet that begins next at the output; which word of a header, or of a flit resent well, was in
error is free (log entry 2). -/
def Mod.flitError (m : Mod) (reply : Bool) (mx my dir : Nat) (e : FlitError) : Mod :=
  let key := outKey reply mx my dir
  match m.nextPacket key with
  | none => m
  | some i =>
    match (mget [] m.routers key)[i]? with
    | none => m
    | some k =>
      let gone := m.begun key i k
      match e with
      | .corrected => (m.draw.2.flitRecord reply mx my (bits m.draw.1 7 0) 0 false).meshHop reply mx my dir
      | .payload w =>
        let m := m.flitRecord reply mx my w 0 true
        if poisonEnds k.body then ({ m with routers := gone.routers, slots := gone.slots, served := gone.served }).answerOp mx my k
        else
          let q := (mget [] m.routers key).set i { k with body := poisonBody k.body w }
          { m with routers := mset [] m.routers key q }.meshHop reply mx my dir
      | .header =>
        (gone.draw.2.flitRecord reply mx my (bits gone.draw.1 7 0) 5 true).answerOp mx my k
      | .headerBoth => gone.draw.2.flitRecord reply mx my (bits gone.draw.1 7 0) 0 true

/-! The fly engine's own work (R195, R201). -/

/-- The channel that an address of this device's stratum lies in, for a company. -/
def Mod.farChan (m : Mod) (c : Nat) (a : Word) : Option Nat :=
  if faDev a = m.get devNum ∧ faSpace a = 0 then
    let p := m.stratPlace c (faOff a)
    some (chanKey p.1 (m.chanOf p.2))
  else none

/-- Whether the throttle lets a fly engine issue a chunk (R195). -/
def Mod.capOk (m : Mod) (f l : Nat) (ch : Chunk) : Bool :=
  let c := (m.coOf f).getD 0
  match m.farChan c ch.far with
  | none => true
  | some k =>
    !(m.isSet stThrottle && m.isSet (sfHot (k / 16) (k % 16))) ||
      decide (((m.cell f l).fly.reqs.filter (fun q => decide (m.farChan c q.addr = some k))).length < m.get stHotCap)

/-- The transfer whose request is next (R201, R195). -/
def Mod.pickFly (m : Mod) (f l : Nat) : Option Transfer :=
  let e := m.env f l
  let y := (m.cell f l).fly
  let ok := fun (k : Nat) =>
    y.transfers.find? (fun t => decide (t.tag = (y.rr + 1 + k) % 16) && mayIssue e y t && ((nextChunk e t).isLocal || m.capOk f l (nextChunk e t)))
  ((List.range 16).filterMap ok).head?

/-! Cell memory served (R212, R401). -/

/-- Whose turn it is at a fly engine: with work of both kinds waiting it alternates (R212). -/
def Mod.inboundTurn (m : Mod) (f l : Nat) : Bool := !(m.cell f l).fly.lastIn || (m.pickFly f l).isNone

def Mod.ownTurn (m : Mod) (f l : Nat) : Bool := (m.cell f l).fly.lastIn || (m.cell f l).inbound.isEmpty

def Mod.flyTook (m : Mod) (f l : Nat) (inb : Bool) : Mod :=
  m.modCell f l (fun c => { c with fly := { c.fly with lastIn := inb } })

/-- CELL_MEMORY_REQUEST: the request in front, when it is its turn. -/
def Mod.cellRequest (m : Mod) (f l : Nat) : Mod :=
  match (m.cell f l).inbound with
  | [] => m
  | r :: rest =>
    if !m.inboundTurn f l then m
    else
    let m := (m.modCell f l (fun c => { c with inbound := rest })).flyTook f l true
    if m.staleReq r then m.countStale (some r.co)
    else
      let a := serveCell r { m.cell f l with notes := [] }
      let m := m.runCell f l 0x400 (fun _ => a.1)
      let m := if a.2.1 = 0 then m.owedLedger r else m
      let at_ := cellRouter f l
      m.answer at_.1 at_.2 ⟨r.owner, a.2.1, a.2.2.1, a.2.2.2, r.gens⟩ r.co

/-! Asides (R222, R224, R401). -/

/-- ASIDE_DELIVERY. -/
def Mod.asideIn (m : Mod) (f l : Nat) : Mod :=
  match (m.cell f l).asides with
  | [] => m
  | b :: rest =>
    let m := m.modCell f l (fun c => { c with asides := rest })
    match b with
    | .aside ch ws bad sf sl sc co cg =>
      if cg ≠ m.get (gsCgen co) ∨ (m.co co).reset.isSome = true then m.countStale (some co)
      else
        let r := deliverAside ch ws bad { m.cell f l with notes := [] }
        let m := m.runCell f l 0x13A (fun _ => r.1)
        if r.2 then
          let at_ := cellRouter f l
          let dst := cellRouter sf sl
          m.atRouter at_.1 at_.2 ⟨true, true, 1, dst.1, dst.2, .cell sf sl, co, .refusal sc cg⟩
        else m
    | _ => m

/-- ASIDE_REFUSAL. -/
def Mod.refusalIn (m : Mod) (f l : Nat) : Mod :=
  match (m.cell f l).refusals with
  | [] => m
  | b :: rest =>
    let m := m.modCell f l (fun c => { c with refusals := rest })
    match b with
    | .refusal ch cg =>
      let c := (m.coOf f).getD 0
      if cg ≠ m.get (gsCgen c) ∨ (m.co c).reset.isSome = true then m.countStale (m.coOf f)
      else (m.count 3 4 f l 0 1).runCell f l 0x13A (refuseIn ch)
    | _ => m

/-! The fly engine (R195, R201 to R203, R273). -/

/-- FLY_REQUEST_ISSUE: the next request of the engine's own transfers, when it is their turn. -/
def Mod.flyIssue (m : Mod) (f l : Nat) : Mod :=
  match if m.ownTurn f l then m.pickFly f l else none with
  | none => m
  | some t =>
    let m := m.flyTook f l false
    let ch := nextChunk (m.env f l) t
    let opn := opFly (dOp t.desc)
    if ch.isLocal then
      m.runCell f l opn (fun c => let c := localChunk t ch c; { c with fly := { c.fly with rr := t.tag } })
    else if decide (t.phase = 0 ∧ dOp t.desc ≠ 3) && !nearOk ch.near (64 * ch.rows) then
      m.runCell f l opn (fun c => { c with fly := putTransfer c.fly (failTransfer t 2 1) })
    else
      let r := farChunk t ch { m.cell f l with notes := [] }
      let m := m.runCell f l opn (fun _ => r.1)
      let q := r.2
      m.issueReq f l ⟨.fly f l q.id, (m.coOf f).getD 0, q.addr, q.op, m.gens f l true, q.ledger⟩

/-- Whether a reply's generations are old (R401): 0 no, 1 device or company, 2 engine. -/
def Mod.staleReply (m : Mod) (f l : Nat) (fly : Bool) (g : Gens) : Nat :=
  let now := m.gens f l fly
  if g.dgen ≠ now.dgen ∨ g.cgen ≠ now.cgen then 1 else if g.egen ≠ now.egen then 2 else 0

/-- Bytes from a SPARSE header to the end of what holds it (R120): its unit, its company's stratum. Another device's is
taken to be as large as this one's (DESIGN CHOICE, log entry 45); no check bounds a host window. -/
def Mod.sparseRoom (m : Mod) (c : Nat) (a : Word) : Nat :=
  if faSpace a = 1 then unitBytes (faUnit a) - faByte a
  else if faSpace a = 0 then m.capacity c - faOff a
  else 2 ^ 48

def isFlyReply (r : Reply) : Bool :=
  match r.owner with
  | .fly _ _ _ => true
  | _ => false

def replyId (r : Reply) : Nat :=
  match r.owner with
  | .fly _ _ id => id
  | .scalar _ _ id => id
  | .remote _ t _ _ => t

/-- The first reply of a list that is this one taken out. -/
def dropReply (l : List Reply) (r : Reply) : List Reply :=
  match l with
  | [] => []
  | x :: xs => if x = r then xs else x :: dropReply xs r

/-- FLY_REPLY: the i-th reply at the engine. -/
def Mod.flyReply (m : Mod) (f l i : Nat) : Mod :=
  match ((m.cell f l).replies.filter isFlyReply)[i]? with
  | none => m
  | some r =>
    let m := m.modCell f l (fun c => { c with replies := dropReply c.replies r })
    match m.staleReply f l true r.gens with
    | 1 => m.countStale (m.coOf f)
    | 2 => m.count 4 4 f l 0 1
    | _ =>
      match (m.cell f l).fly.reqs.find? (fun q => decide (q.id = replyId r)) with
      | none => m
      | some q =>
        let src := (((m.cell f l).fly.transfers.find? (fun t => decide (t.tag = q.tag))).map (fun t => dSrc t.desc)).getD 0
        let m := m.runCell f l 0x400 (flyReplyIn (m.sparseRoom ((m.coOf f).getD 0) src) q r)
        if r.status = 2 then m.holdFor f l q.addr else m

/-! The host window (R239, R281, R303). -/

/-- The reply to a host-window access: data, or the status of how PCIe ended it. -/
def hostResult (r : Req) (res : HostReply) : Reply :=
  match res with
  | .data bs => ⟨r.owner, 0, slice bs 0 (opBytes r.op), [], r.gens⟩
  | .unsupported => statusReply r 1
  | .abort => statusReply r 1
  | .poison => statusReply r 5
  | .timeout => statusReply r 5

/-- A company's guaranteed 64ths of its host port (R313). -/
def Mod.hostShare (m : Mod) (c : Nat) : Nat := if c < 16 && m.isSet (cdEn c) then m.get (csHost c) else 0

/-- The access that a host port makes next (R313): each company's own in order. Its index, and the arbitration after it. -/
def Mod.nextHost (m : Mod) (hp : Nat) : Option (Nat × Arb) :=
  let q := mget [] m.toHost hp
  let a := mget .zero m.hostArb hp
  let first := fun (q : List ChanReq) (c : Nat) => q.findIdx? (fun x => decide (x.req.co = c))
  let waits := fun (q : List ChanReq) => (List.range 17).filter (fun c => (first q c).isSome)
  let size := fun c => (((first q c).bind (fun i => q[i]?)).map (fun x => opBytes x.req.op)).getD 0
  match a.next (waits q) m.hostShare size with
  | some (c, own) => (first q c).map (fun i => (i, a.serve c (size c) own (waits (q.eraseIdx i))))
  | none => none

/-- Where a host port's reply to an access enters the mesh (R215). -/
def Mod.hostReplyAt (m : Mod) (hp : Nat) (q : ChanReq) : Nat × Nat :=
  match ownerCell q.req.owner with
  | some (f, l) => let t := cellRouter f l; (m.attach (hostRouters hp) (t.1 + t.2)).getD (q.mx, q.my)
  | none => (q.mx, q.my)

/-- HOST_WINDOW_ACCESS: the access that a host port makes next. -/
def Mod.hostAccess (m : Mod) (hp : Nat) (res : HostReply) : Mod :=
  match (m.nextHost hp).bind (fun n => ((mget [] m.toHost hp)[n.1]?).map (fun q => (n, q))) with
  | none => m
  | some (n, q0) =>
    let m := { m with toHost := mset [] m.toHost hp ((mget [] m.toHost hp).eraseIdx n.1), hostArb := mset .zero m.hostArb hp n.2 }
    let at_ := m.hostReplyAt hp q0
    let q := { q0 with mx := at_.1, my := at_.2 }
    let r := q.req
    let off := faOff r.addr
    let n := opBytes r.op
    if m.staleReq r then m.countStale (some r.co)
    else if !m.hostMapped r.co off n then m.answer q.mx q.my (statusReply r 1) r.co
    else if !m.hostUp r.co then m.answer q.mx q.my (statusReply r 4) r.co
    else
      let a := m.hostAddr r.co off
      match r.op with
      | .store v => (m.hostWrite r.co a (toLe v.toNat 8)).answer q.mx q.my (statusReply r 0) r.co
      | .write bs _ => (m.hostWrite r.co a bs).answer q.mx q.my (statusReply r 0) r.co
      | _ => (m.hostRead r.co a n).answer q.mx q.my (hostResult r res) r.co

end Sys2Proof.Machine
end

