-- ==== Sys2Proof/Machine/Deaths.lean ====
section
/-! DEFINITION. Cells judged dead, understudy calls and field-rows that go dark (R361 to R366, R383, R384). -/

namespace Sys2Proof.Machine

/-- WHERE of a physical cell, which may be left out (Table 17-6). -/
def wherePhys (f row pcol l : Nat) : Nat := f + (row * 24 + l) * 2 ^ 7 + pcol * 2 ^ 20

/-- The logical column of a physical one (R33); the left-out column has none, 0 is given for it. -/
def Mod.lcol (m : Mod) (f row pcol : Nat) : Nat :=
  let L := m.get (rowL f row)
  if pcol < L then pcol else pcol - 1

/-- A record of class 0x08 (Table 17-7). -/
def Mod.deathRecord (m : Mod) (f row pcol what newL : Nat) : Mod :=
  m.recordFree ⟨0, 8, 1, wherePhys f row pcol (m.lcol f row pcol), 8 * 256, 0, m.coOf f, what + newL % 32 * 2 ^ 8⟩

/-- A powered cell of zeros; engine generations are the device's (R56, R399), and the seeds to which a reset returns the
loaded production's (R75). -/
def Cell.fresh (c : Cell) : Cell :=
  { Cell.zero with
    sc := { Scalar.zero with egen := c.sc.egen }
    mats := (c.mats.map (fun e => (e.1, { Matrix.zero with srInit := e.2.srInit, egen := e.2.egen }))).filter
      (fun e => decide (e.2 ≠ .zero))
    vec := { Vec.zero with srInit := c.vec.srInit, egen := c.vec.egen }
    fly := { Fly.zero with egen := c.fly.egen } }

/-- Every physical cell that a condition on its place names, made fresh. -/
def Mod.freshCells (m : Mod) (p : Nat → Bool) : Mod :=
  m.each ((m.cells.map (·.1)).filter p) (fun m k => { m with cells := mset .zero m.cells k (mget .zero m.cells k).fresh })

def Mod.freshRow (m : Mod) (f row : Nat) : Mod := m.freshCells (fun k => decide (k / 400 = f ∧ k % 400 / 25 = row))

def Mod.freshField (m : Mod) (f : Nat) : Mod := m.freshCells (fun k => decide (k / 400 = f))

/-! A row out of service (R362 to R366). -/

/-- The packets at a router leave it: requests are answered from the next router in service, the rest are dropped (R366, R403). -/
def Mod.drainRouter (m : Mod) (mx my : Nat) : Mod :=
  let south := m.nextRow mx my true 128
  let t := if south < 128 then (mx, south) else (mx, m.nextRow mx my false 128)
  let keys := [true, false].flatMap (fun r => (List.range 5).map (fun d => outKey r mx my d))
  let ks := keys.flatMap (fun k => mget [] m.routers k)
  let m := { m with routers := keys.foldl (fun r k => merase r k) m.routers }
  m.each ks (fun m k => m.domainOff t.1 t.2 k)

/-- An edge block with no live attachment router goes out of service (R364). -/
def Mod.loseEdges (m : Mod) : Mod :=
  let m := m.each (List.range 48) (fun m p =>
    if m.portFitted p && (m.liveRouters (optRouters p)).isEmpty && decide (m.get (portState p) ≠ 5) then
      (m.put buEdgeLost 1).portDown p 5
    else m)
  m.each (List.range 4) (fun m hp =>
    if (m.liveRouters (hostRouters hp)).isEmpty && !shas m.hostOut hp then
      let m := { m.put buEdgeLost 1 with hostOut := sadd m.hostOut hp }
      m.each (m.cosOf hp (fun _ => true)) Mod.coHostLost
    else m)

/-- A field-row marked dark and the other rows of its mesh row shadowed (R362, R363). -/
def Mod.markDark (m : Mod) (f row : Nat) : Mod :=
  let m := ((m.put (rowDark f row) 1).put (rowShadow f row) 0).put (rowL f row) 31
  m.each (List.range 9) (fun m x =>
    let g := f / 9 * 9 + x
    if m.isSet (rowDark g row) then m else m.put (rowShadow g row) 1)

/-- Whether a company has a job cell in a mesh row of a field row. -/
def Mod.jobInRow (m : Mod) (c fy row : Nat) : Bool := m.hasJob c && (m.prodCells c).any (fun p => decide (p.1 / 9 = fy ∧ p.2 / 24 = row))

/-- A field-row that goes dark in operation (R366). -/
def Mod.darken (m : Mod) (f row : Nat) : Mod :=
  let m := m.each allCos (fun m c => if m.jobInRow c (f / 9) row then m.stopJob c 0x307 0 false else m)
  let m := m.markDark f row
  let m := m.each (List.range 216) (fun m mx => m.drainRouter mx (f / 9 * 16 + row))
  let m := m.loseEdges
  let m := m.each allCos (fun m c => if (m.coFields c).any (fun g => decide (g / 9 = f / 9)) then m.put (reloadNeeded c) 1 else m)
  m.deathRecord f row 0 4 31

/-! Judgements (R383). -/

/-- Marks of a physical cell taken out. -/
def Mod.unmarkCell (m : Mod) (f row pcol : Nat) : Mod :=
  m.each (List.range 256) (fun m i =>
    let w := m.reg (rhOff i)
    if bit w 63 && decide (bits w 56 50 = f ∧ bits w 49 41 / 24 = row ∧ bits w 40 36 = pcol) then m.unmark i else m)

/-- A served replay ended or abandoned (R375): its cells stopped, the copied data kept. -/
def Mod.serveEnd (m : Mod) (c : Nat) : Mod :=
  (m.eachCell (m.prodCells c) Cell.contextReset).modCo c (fun x => { x with enc := .zero })

/-- A cell of the encore field, or of a company that serves a replay, judged dead during the replay: the replay is abandoned, and the
step of the origin commits unverified (Table 17-4). -/
def Mod.replayDead (m : Mod) (f : Nat) : Mod :=
  match m.coOf f with
  | none => m
  | some c =>
    if (m.co c).enc.serving then m.serveEnd c
    else if m.isSet (esReplaying c) && decide (m.get (encMode c) = 1 ∧ m.get (encField c) = f) then
      (m.fieldStop c).commitUnverified c (m.co c).enc.atEnd
    else m

/-- The spare is found bad (R358, R381, R383). -/
def Mod.spareBad (m : Mod) (f row : Nat) : Mod := ((m.addDefect (.cell f row 24)).put (rowSpare f row) 0).deathRecord f row 24 3 24

/-- The understudy call of a field-row under way: the dead column plus 1, or 0. -/
def Mod.setCall (m : Mod) (f row v : Nat) : Mod := { m with calls := mset 0 m.calls (f * 16 + row) v }

/-- The job of a dead job cell stopped (R383, Table 17-4). -/
def Mod.deadStop (m : Mod) (f l : Nat) : Mod :=
  match m.coOf f with
  | some c => if m.isJobCell c f l then (m.backToS0 c).stopJob c 0x302 (infoFault 0x21 f l pcOnes) false else m
  | none => m

/-- Whether a row's spare can take a dead cell's place (R357, R384). -/
def Mod.spareReady (m : Mod) (f row : Nat) : Bool :=
  decide (m.get (rowL f row) = 24) && m.isSet (rowSpare f row) && decide (m.health.entries.length < 1024) &&
    decide (mget 0 m.calls (f * 16 + row) = 0)

/-- A cell judged dead (R383): its job stops, and an understudy is called, or its row goes dark. -/
def Mod.judgeDead (m : Mod) (f row pcol : Nat) : Mod :=
  let L := m.get (rowL f row)
  if m.rowOut f row then m
  else if pcol = L then (if pcol = 24 then m.spareBad f row else m)
  else
    let ready := m.spareReady f row
    let d := ((m.addDefect (.cell f row pcol)).unmarkCell f row pcol).deathRecord f row pcol 1 L
    let s := (d.replayDead f).deadStop f (row * 24 + m.lcol f row pcol)
    if ready then s.setCall f row (pcol + 1) else (s.setCall f row 0).darken f row

/-- The seeds of a row's logical cells, which another column may hold now (R75, R384). -/
def Mod.rowSeeds (m old : Mod) (f row : Nat) : Mod :=
  m.each (List.range 24) (fun m lc => m.modCell f (row * 24 + lc) (fun c => c.withSeeds (old.cell f (row * 24 + lc))))

/-- An understudy call's end (R384). -/
def Mod.understudy (m : Mod) (f row : Nat) (ok : Bool) : Mod :=
  let p := mget 0 m.calls (f * 16 + row)
  let m := m.setCall f row 0
  if p = 0 then m
  else if ok then
    let m := ((m.put (rowL f row) (p - 1)).freshRow f row).rowSeeds m f row
    let m := match m.coOf f with
      | some c => if (m.co c).prod.isSome then m.put (reloadNeeded c) 1 else m
      | none => m
    m.deathRecord f row (p - 1) 2 (p - 1)
  else (m.spareBad f row).darken f row

end Sys2Proof.Machine
end

