-- ==== Sys2Proof/Machine/Resets.lean ====
section
/-! DEFINITION. Resets (R391 to R402, R407, R408) and ghost light (R404 to R406). -/

namespace Sys2Proof.Machine

/-! Partition resets (R395). -/

/-- Cues read and not begun dropped, reads outstanding forgotten. -/
def Mod.dropCues (m : Mod) (c : Nat) : Mod :=
  m.modCo c (fun x => { x with rings := (x.rings.map (fun e => (e.1, { e.2 with reads := [], cues := [] }))).filter (fun e => decide (e.2 ≠ .zero)) })

/-- FETCHED of every command ring set back to HEAD. -/
def Mod.refetch (m : Mod) (c : Nat) : Mod :=
  m.each allRings (fun m r => if m.isSet (cmdEn c r) then m.setRing c r { m.ring c r with fetched := m.get (cmdHead c r) } else m)

/-- A partition reset begun: it absorbs a context reset of the company (R395, R407). -/
def Mod.partitionBegin (m : Mod) (c : Nat) : Mod :=
  if !m.isSet (cdEn c) || m.cuesWait c then m
  else
    let old := (m.co c).reset
    let m := if old.isSome then m else ((m.dropChange c).eachCell (m.prodCells c) Cell.contextReset).dropEncore c
    let r : CoReset := match old with
      | some r => { r with level := 3 }
      | none => ⟨3, 0x307, 0, m.hasJob c, false, false, 0⟩
    let m := (((m.noChange c).deadTags c).modCo c (fun x => { x with reset := some r })).put (gsBusy c) 1
    let m := (m.addWrap (gsResets c) 1).dropCues c
    let m := if old.isSome then m else m.bumpCgen c
    m.each (m.coFields c) Mod.stratFill

/-- Whether a company's fields have ended their zero-fill, or cannot (R395). -/
def Mod.refilled (m : Mod) (c : Nat) : Bool :=
  (m.coFields c).all (fun f => m.stratReady f || decide (m.stratState f = ssOff ∨ m.stratState f = ssFault))

/-- The loader's and the ring unit's part of a partition reset's end: a load in progress completes with 0x0307, an unload with
0, a run with its reset's status (R395). -/
def Mod.partitionCues (m : Mod) (c : Nat) (r : CoReset) : Mod :=
  let m := if r.hadJob then m.endRun c r.status r.info r.silent else m
  let m := match (m.co c).loading with
    | some g => (m.modCo c (fun x => { x with loading := none })).endLoad c g.ring 0x307 0 r.silent
    | none => m
  match (m.co c).unloading with
  | some k => (m.modCo c (fun x => { x with unloading := none })).endLoad c k 0 0 r.silent
  | none => m

/-- A partition reset's end (R395, R409). -/
def Mod.partitionDone (m : Mod) (c : Nat) : Mod :=
  match (m.co c).reset with
  | some r =>
    if r.level = 3 ∧ r.waitGen = false ∧ m.refilled c = true then
      let n := if r.hadJob then (m.prodCells c).length else 0
      let m := (((m.dropCues c).freeEntries c).clearStores c).partitionCues c r
      let m := ((m.wipeCells c).release c).zeroLedgers c
      let m := ((m.put (reloadNeeded c) 0).put (gsBusy c) 0).modCo c (fun x => { x with reset := none, chorus := [] })
      let g := m.get (gsCgen c)
      ((m.dropCues c).refetch c).resetRecord 3 0 ((g + 255) % 256) g (some c) n r.aged
    else m
  | none => m

/-! CO_RESET (R392 to R395, R408). -/

/-- A context reset of one command ring (R393, counted as Table 18-9 says). -/
def Mod.ringReset (m : Mod) (c r : Nat) : Mod :=
  let m := m.ringOff c r
  match (m.ring c r).cur with
  | none => m.addWrap (gsResets c) 1
  | some q =>
    let op := (q.bytes.map cueOp).getD 0
    if op = 3 then m.stopJob c 0x307 0 false
    else if op = 2 ∨ op = 4 then m.addWrap (gsResets c) 1
    else
      let m := (m.addWrap (gsResets c) 1).modCo c (fun x => { x with change := x.change.map (fun g => if g.cue = some r then { g with cue := none } else g) })
      m.finishCue c r 0x307 0

/-- CO_RESET's write (R9, R310, R392 to R395, R408); company blocks stay in service in ghost light (R405), where a partition reset waits
for its zero-fill. -/
def Mod.coResetCtrl (m : Mod) (c : Nat) (v : Word) (src : WSrc) : Mod :=
  let ctx := bit v 31
  let part := bit v 30
  if !m.isSet (cdEn c) || (ctx && part) then m
  else if part then (if src = .pf then m.partitionBegin c else m)
  else if ctx then (if bit v 29 then m.ringReset c (bits v 5 0) else m.stopJob c 0x307 0 false)
  else m

/-- CONTEXT_RESET (R392, R408). -/
def execContextReset (co : Fin 16) (src : WSrc) (v : Word) (s : State) : Host.Outcome State Fault Refusal :=
  onCo s co src (fun m => m.coResetCtrl co v src)

/-- RING_CONTEXT_RESET (R393, R408). -/
def execRingContextReset (co : Fin 16) (src : WSrc) (v : Word) (s : State) : Host.Outcome State Fault Refusal :=
  onCo s co src (fun m => m.coResetCtrl co v src)

/-- PARTITION_RESET (R395, R408). -/
def execPartitionReset (co : Fin 16) (src : WSrc) (v : Word) (s : State) : Host.Outcome State Fault Refusal :=
  onCo s co src (fun m => m.coResetCtrl co v src)

/-! Engine resets (R394, R399, R400, R408). -/

/-- An engine's state at its reset value, as after a production load (R86, R127, R139, R147, R204, R394). -/
def Cell.engineReset (c : Cell) (unit : Nat) : Cell :=
  if unit < 6 then c.setMat unit (c.mat unit).reset
  else if unit = 6 then { c with vec := c.vec.reset }
  else if unit = 7 then { c with sc := c.sc.reset }
  else { c with fly := { c.fly.reset with words := [], rr := 0 }, inbound := [] }

def Cell.egen (c : Cell) (unit : Nat) : Nat :=
  if unit < 6 then (c.mat unit).egen else if unit = 6 then c.vec.egen else if unit = 7 then c.sc.egen else c.fly.egen

def Cell.setEgen (c : Cell) (unit v : Nat) : Cell :=
  if unit < 6 then c.setMat unit { c.mat unit with egen := v }
  else if unit = 6 then { c with vec := { c.vec with egen := v } }
  else if unit = 7 then { c with sc := { c.sc with egen := v } }
  else { c with fly := { c.fly with egen := v } }

/-- The key of an engine's generation value among those left within 34 ms. -/
def egenKey (f l unit v : Nat) : Nat := ((f * 384 + l) * 10 + unit) * 4 + v

/-- An engine's generation advanced, or the reset waits for the value to age (R400). -/
def Mod.bumpEgen (m : Mod) (f l unit : Nat) : Mod :=
  let g := (m.cell f l).egen unit
  let n := (g + 1) % 4
  let x := m.field f
  let waits := match x.eng with | some (_, _, w) => w | none => false
  if shas m.egens (egenKey f l unit n) then m.setField f { x with eng := some (l, unit, true), engAged := if waits then x.engAged else m.now }
  else
    let m := (m.modCell f l (fun c => c.setEgen unit n)).setField f { x with
      eng := some (l, unit, false), engAged := if waits then m.now - x.engAged else 0 }
    { m with egens := sadd m.egens (egenKey f l unit g) }

/-- An engine reset's own part: pipelines, queues and visible state cleared, the generation advanced (R394). -/
def Mod.engineStart (m : Mod) (f l unit : Nat) : Mod :=
  (((m.modCell f l (fun c => c.engineReset unit)).put (erBusy f) 1).put (erFailed f) 0).bumpEgen f l unit

/-- An engine reset begun: a running job of the cell is stopped first (R394). -/
def Mod.engineBegin (m : Mod) (f l unit : Nat) : Mod :=
  if m.isSet (erBusy f) || !m.cellOk f l then m
  else
    let m := match m.coOf f with
      | some c => if m.isJobCell c f l then m.stopJob c 0x307 0 false else m
      | none => m
    m.engineStart f l unit

/-- An engine reset that an escalation asks for: at a field whose block has one under way it waits (R397). -/
def Mod.engineAsk (m : Mod) (f l unit : Nat) : Mod :=
  if !m.cellOk f l then m
  else if m.isSet (erBusy f) then m.setField f { m.field f with engWait := (m.field f).engWait ++ [(l, unit)] }
  else m.engineStart f l unit

/-- Whether a UNIT code names an engine. -/
def unitOk (u : Nat) : Bool := decide (u ≤ 7 ∨ u = 9)

/-- ENGINE_RESET's write (R9, R17, R408). -/
def Mod.engineCtrl (m : Mod) (f : Nat) (v : Word) : Mod :=
  if !unitOk (bits v 12 9) || decide (384 ≤ bits v 8 0) then m
  else
    let m := m.plainWrite (fieldBase f + 0x480) v
    if bit v 31 && m.fieldOn f then m.engineBegin f (bits v 8 0) (bits v 12 9) else m

/-- ENGINE_RESET (R394, R408). -/
def execEngineReset (f : Fin 72) (v : Word32) (s : State) : Host.Outcome State Fault Refusal :=
  onField s f (fun m => m.fieldCtrl (fieldBase f + 0x480) (v.setWidth 64) (m.engineCtrl f (v.setWidth 64)))

/-- An engine reset in progress over. -/
def Mod.engineEnd (m : Mod) (f : Nat) : Mod := (m.put (erBusy f) 0).setField f { m.field f with eng := none, engAged := 0 }

/-- The next engine that an escalation has still to reset. -/
def Mod.engineNext (m : Mod) (f : Nat) : Mod :=
  match (m.field f).engWait with
  | [] => m
  | (l, u) :: rest => (m.setField f { m.field f with engWait := rest }).engineStart f l u

/-- An engine reset's end: the known-answer check passed, or the cell is judged dead (R394). -/
def Mod.engineDone (m : Mod) (f : Nat) (ok : Bool) : Mod :=
  match (m.field f).eng with
  | some (l, unit, false) =>
    let g := (m.cell f l).egen unit
    let m := (m.engineEnd f).resetRecord 2 0 ((g + 3) % 4) g (m.coOf f) 0 (m.field f).engAged
    let m := if ok then m else (m.put (erFailed f) 1).judgeDead f (l / 24) (m.pcol f (l / 24) (l % 24))
    m.engineNext f
  | _ => m

/-! The module's resets: what chip resets and ghost light end (R396, R404). -/

/-- A job stopped and ended at once, with its reset's status (R392, R396, R404); a reset in progress ends with it (R407). -/
def Mod.endNow (m : Mod) (c : Nat) (silent : Bool) : Mod :=
  let m := m.stopJob c 0x307 0 silent
  match (m.co c).reset with
  | some r =>
    let m := (m.modCo c (fun x => { x with reset := none })).put (gsBusy c) 0
    if r.hadJob then m.endRun c r.status r.info (r.silent || silent) else m
  | none => m

/-- A tag whose request a reset abandoned (R402). -/
def deadTag (e : Nat × Option TagUse) : Nat × Option TagUse := (e.1, e.2.map (fun u => { u with dead := true }))

/-- Everything under way on the mesh, at host edges and in Shedin gone; requests abandoned hold their tags (R396, R402, R404). -/
def Mod.clearTraffic (m : Mod) : Mod :=
  let m := m.each ((m.chans.map (·.1)).map (fun k => (k / 16, k % 16))) (fun m p => m.put (sfHot p.1 p.2) 0)
  let m := { m with
    routers := [], slots := [], served := [], flows := [], tagWait := [], toHost := [], ledAdds := [], rounds := [], closed := []
    bounces := [], hostArb := [], retired := m.retired || m.isSet shDraining, chans := [], tags := m.tags.map deadTag, quiet := true, linked := false }
  ((m.put shDraining 0).put drainTally 0).countTags

/-- An optical port without its light: frames are gone. -/
def Mod.portDark (m : Mod) (p st : Nat) : Mod :=
  if m.portFitted p then (m.put (portState p) st).setOport p .zero else m

/-- Clock switches, rehearsals and resets of a field given up; a power-down goes on (R407). -/
def Mod.fieldQuiet (m : Mod) (f : Nat) : Mod :=
  ((m.put (fcBusy f) 0).engineEnd f).setField f { m.field f with
    switching := 0, switches := [], tries := 0, rehearsing := [], eng := none, engWait := [] }

/-! Chip resets (R396, Table 18-2). -/

/-- Whether a chip reset keeps a whole register that is no RWS one (R336, R351, R396). -/
def chipKeeps (o : Nat) : Bool :=
  if 0x30000 ≤ o ∧ o < 0x40000 then
    let k := o % 0x1000
    decide (k = 0 ∨ k = 0x800 ∨ k = 0x808 ∨ k = 0x810 ∨ k = 0x200 ∨ k = 0x400 ∨ k = 0x508 ∨ (0x300 ≤ k ∧ k < 0x398))
  else if 0x40000 ≤ o ∧ o < 0x50000 then false
  else if 0x180000 ≤ o ∧ o < 0x200000 then false
  else if 0x300000 ≤ o ∧ o < 0x380000 then false
  else decide (0x400000 ≤ o ∧ o < 0x450000)

/-- Whether a chip reset returns a register to its reset value whole, status and all. -/
def chipClears (o : Nat) : Bool :=
  decide ((0x30000 ≤ o ∧ o < 0x50000) ∨ (0x180000 ≤ o ∧ o < 0x200000) ∨ (0x300000 ≤ o ∧ o < 0x380000))

/-- A field of a register at a chip reset: RW, W1C and WO return to reset (Table 00-5). -/
def chipField (old : Word) (d : FieldD) : Word :=
  match d.acc with
  | .rw => setBits old d.hi d.lo d.rst
  | .w1c => setBits old d.hi d.lo 0
  | _ => old

/-- What a register holds after a chip reset (R6, R396). -/
def chipReg (o : Nat) (v : Word) : Word :=
  if chipKeeps o then v
  else if chipClears o then resetVal o
  else
    match regAt o with
    | some d => d.fields.foldl chipField v
    | none => v

/-- The registers after a chip reset; HEALTH_CTRL is kept in the health record (R367). -/
def Mod.chipRegs (m : Mod) : Mod :=
  let keep := m.get quickEn
  let regs := (m.regs.map (fun (e : Nat × Word) => (e.1, chipReg e.1 e.2))).filter (fun (e : Nat × Word) => decide (e.2 ≠ resetVal e.1))
  let m := { m with regs := regs, sels := [], snaps := [] }
  ((m.put quickEn keep).put frBusy 0).put rhRunning 0

/-- A company at a chip reset: EMPTY, its rings and all that waited gone (R396). -/
def Mod.chipCo (m : Mod) (c : Nat) : Mod :=
  let m := (((m.loadFails c 0x307 0 false).release c).put (reloadNeeded c) 0).put (stopPending c) 0
  let m := (m.put (ctDefLost c) 0).put (ctShareLost c) 0
  m.modCo c (fun x => { Company.zero with
    gens := x.gens, loadNo := x.loadNo, remProd := x.remProd, remJob := x.remJob, remCo := x.remCo, trips := x.trips })

/-- A chip reset waits for a scope's generation to age; the wait begins with the first (R400, R407). -/
def Mod.chipWait (m : Mod) (k : Nat) : Mod :=
  { m with chipAged := if m.chipWaits.isEmpty then m.now else m.chipAged, chipWaits := sadd m.chipWaits k }

/-- It waits for that scope no more; the wait ends with the last. -/
def Mod.chipAgedDone (m : Mod) (k : Nat) : Mod :=
  let w := sdel m.chipWaits k
  { m with chipAged := if w.isEmpty && !m.chipWaits.isEmpty then m.now - m.chipAged else m.chipAged, chipWaits := w }

/-- A company's generation changed by a chip reset, once (R396, R400). -/
def Mod.chipCgen (m : Mod) (c : Nat) : Mod :=
  let g := m.get (gsCgen c)
  let n := (g + 1) % 256
  if shas (m.co c).gens n then m.chipWait c
  else ((m.put (gsCgen c) n).modCo c (fun x => { x with gens := sadd x.gens g })).chipAgedDone c

/-- The device's generation changed (R396, R399, R400). -/
def Mod.chipDgen (m : Mod) : Mod :=
  let g := m.get rtDgen
  let n := (g + 1) % 256
  if shas m.dgens n then m.chipWait 16
  else
    let m := m.put rtDgen n
    { m with dgens := sadd m.dgens g, health := { m.health with dgen := n } }.chipAgedDone 16

/-- A company that holds a production noted for the reset's record, with the job cells that the reset stops (R409). -/
def Mod.noteHeld (m : Mod) (c : Nat) : Mod :=
  if (m.co c).prod.isSome then { m with chipHeld := m.chipHeld ++ [(c, m.get (gsCgen c), if m.hasJob c then (m.prodCells c).length else 0)] } else m

/-- A field's stratum through self-refresh and retraining; its contents are kept. One that is off powers up first, and is zero-filled
after its training (R22, R194, R406, Table 08-4). -/
def Mod.chipStrat (m : Mod) (f : Nat) : Mod :=
  let s := m.stratState f
  if s = ssOff then (if m.present f then m.stratTrain f else m)
  else if s = ssFilling then ({ m with stratLost := sadd m.stratLost f }).setStrat f ssTraining
  else m.setStrat f ssTraining

/-- A field at a chip reset: on the fallback clock, then to its effective point; PLL_FAULT and SENSOR_FAULT clear (R330, R346). -/
def Mod.chipField (m : Mod) (f : Nat) : Mod :=
  let m := ((((m.fieldQuiet f).traceOff f).put (fcFault f) 0).put (fsSensor f) 0).takeCtrl f
  if m.fieldOn f && !(m.field f).drainCompute && !m.isSet (fsHard f) then
    (m.put (fsOp f) (m.effective f)).beginSwitch f (opFreq (m.effective f))
  else m

/-- Whether a field's compute domain is to be on: it lies in an enabled company, or a rehearsal or an understudy call runs in it
(R340). -/
def Mod.wantsPower (m : Mod) (f : Nat) : Bool :=
  (m.coOf f).isSome || !(m.field f).rehearsing.isEmpty || m.calls.any (fun e => decide (e.1 / 16 = f))

/-- Whether ghost light keeps every domain down: no chip reset leaves it (R404, R405). -/
def Mod.keptDown (m : Mod) : Bool := m.ghost && !m.isSet rtChipBusy

/-- What a chip reset asks of the power sequencer: on the way out of ghost light every field's fabric, and compute where an enabled
company needs it (R340, R341, R405); else the fields that are off or on against R340. -/
def Mod.powerBack (m : Mod) : Mod :=
  if m.ghost then m.requestPower true allFields
  else
    let m := m.requestPower true (allFields.filter (fun f => m.present f && (m.coOf f).isSome && decide (m.get (fsDomain f) = 0)))
    m.requestPower false (m.onFields.filter (fun f => !m.wantsPower f))

/-- The edge domains powered up on the way out of ghost light: their counters start at zero (R419); host port 0 stayed on. -/
def Mod.edgesUp (m : Mod) : Mod :=
  { m with
    edgeUps := m.edgeUps + 1
    ctr := m.ctr.filter (fun e =>
      let kind := e.1 / 64 / 512 / 128 / 256
      !decide (kind = 8 ∨ kind = 9 ∨ (kind = 10 ∧ e.1 / 64 / 512 % 128 ≠ 0))) }

/-- A chip reset begun (R364, R396, Table 18-2): its completions are written as it begins. -/
def Mod.chipBegin (m : Mod) : Mod :=
  let m := { (m.put rtChipBusy 1).put rtExitWait 0 with chipAged := 0 }
  let m := if m.ghost then m.edgesUp else m
  let m := m.each allCos Mod.noteHeld
  let m := m.each allCos (fun m c => let g := m.get (gsCgen c); let m := m.endNow c false; if m.get (gsCgen c) = g then m.chipCgen c else m)
  let m := (m.each allCos Mod.chipCo).chipDgen.clearTraffic
  let m := m.each (List.range 48) (fun m p =>
    if m.portFitted p then (m.lanesFused p).portDark p (if (m.liveRouters (optRouters p)).isEmpty then 5 else 2) else m)
  let m := { m with rounds := [], calls := [] }.freshCells (fun _ => true)
  let m := m.each allFields Mod.chipStrat
  (m.chipRegs.each allFields Mod.chipField).powerBack

/-- Whether a cause's exit waits for a condition of Table 18-5; a REFCLK that has failed is waited for under any cause (Table 14-3; log
entry 40). -/
def Mod.exitNeeds (m : Mod) : Bool := m.refclkOut || decide (m.get rtCause = 2 ∨ m.get rtCause = 3)

/-- Whether RESET_CTRL.CHIP begins a chip reset in ghost light now, waits, or is refused (R405): 0 begins, 1 waits, 2 refused. -/
def Mod.exitDecision (m : Mod) : Nat :=
  let c := m.get rtCause
  if c = 2 ∨ c = 3 ∨ c = 5 ∨ (c = 6 ∧ m.get buFailStep = 7) then (if m.exitNeeds && !m.exitHolds then 1 else 0)
  else 2

/-- A chip reset asked for (R396, R405, R407). -/
def Mod.chipAsk (m : Mod) : Mod :=
  if m.isSet rtChipBusy then m
  else if !m.ghost then m.chipBegin
  else
    match m.exitDecision with
    | 0 => m.chipBegin
    | 1 => m.put rtExitWait 1
    | _ => m.put rtRefused 1

/-- A chip reset's end (R396, R405, R409): ghost light is left, once its waves have ended (R341). -/
def Mod.chipDone (m : Mod) : Mod :=
  if !m.isSet rtChipBusy || !m.chipWaits.isEmpty || !m.prompterUp || (m.ghost && !(m.power.isEmpty && m.wave.isNone)) then m
  else
    let m := (m.put rtChipBusy 0).addSat rtChipResets 1
    let d := m.get rtDgen
    let m := if m.chipHeld.isEmpty then m.resetRecord 4 0 ((d + 255) % 256) d none 0 m.chipAged
      else m.each m.chipHeld (fun m (e : Nat × Nat × Nat) => m.resetRecord 4 0 e.2.1 (m.get (gsCgen e.1)) (some e.1) e.2.2 m.chipAged)
    let m := { m with chipHeld := [] }.each allCos (fun m c => (m.put (lastInterval c) 0).put (intervalValid c) 0)
    if m.ghost then
      let cause := m.get rtCause
      let m := (((m.put rtGhost 0).put dsGhost 0).put rtCause 0).put rtExitWait 0
      { m with exitHolds := false, refclkOut := false }.resetRecord 6 cause d d none 0 0
    else m

/-! Ghost light (R404 to R406). -/

/-- A field at the entry to ghost light: its domains drain, and its stratum goes to self-refresh (R403, R404). -/
def Mod.ghostField (m : Mod) (f : Nat) : Mod :=
  let m := (m.fieldQuiet f).stratSelf f
  m.setField f { m.field f with drainCompute := m.fieldOn f, drainFabric := (m.field f).fabricOn }

/-- Every field compute, field fabric, optical edge and host edge domain powered down but port 0's: the fields in waves (R341), ahead of
whatever the sequencer had to do (R348). What was under way is lost at once; a tripped field stays tripped (R404). -/
def Mod.ghostOff (m : Mod) : Mod :=
  let m := ((m.each allFields Mod.ghostField).freshCells (fun _ => true)).clearTraffic
  let m := m.each (List.range 48) (fun m p => m.portDark p 1)
  { m with power := [(false, allFields)], wave := none, calls := [] }

/-- A company at the entry to ghost light: a run completes where it is bound to port 0's physical function (R404). -/
def Mod.ghostCo (m : Mod) (c : Nat) : Mod :=
  let silent := !(m.port c == 0 && m.func c == 0)
  let m := ((m.endNow c silent).loadFails c 0x307 0 silent).noChange c
  if (m.co c).prod.isSome then
    ((m.modCo c (fun x => { x with unloading := none })).setCoState c stLoaded).put (reloadNeeded c) 1
  else m

/-- The records of an entry (R404, R409). -/
def Mod.ghostRecords (m : Mod) (cause : Nat) : Mod :=
  let d := m.get rtDgen
  if m.chipHeld.isEmpty then m.resetRecord 5 cause d d none 0 0
  else
    let m' := m.each m.chipHeld (fun m (e : Nat × Nat × Nat) => m.resetRecord 5 cause e.2.1 (m.get (gsCgen e.1)) (some e.1) e.2.2 0)
    { m' with chipHeld := [] }

/-- Ghost light entered for a cause; a cause that arises in it ends a chip reset or a wait, and else changes nothing, but that a clock or
power fault has to pass its exit condition anew (R404, R405). -/
def Mod.ghostIn (m : Mod) (cause : Nat) : Mod :=
  let m := if m.ghost && decide (cause = 5) && !m.isSet rtChipBusy && !m.isSet rtExitWait then m else { m with exitHolds := false }
  if m.ghost then
    if m.isSet rtChipBusy || m.isSet rtExitWait then
      { (((m.put rtChipBusy 0).put rtExitWait 0).put rtCause cause).ghostOff with chipWaits := [], chipHeld := [] }
    else m
  else
    let m := { m.put rtChipBusy 0 with chipWaits := [], chipHeld := [] }.each allCos Mod.noteHeld
    let m := (m.each allCos Mod.ghostCo).ghostOff
    let m := (((m.put rtGhost 1).put dsGhost 1).put rtCause cause).put rtExitWait 0
    { m with alert := true }.ghostRecords cause

/-- Whether the exit condition of a cause can hold (Table 18-5): 16 fine windows of REFCLK in a row for cause 2 and for a REFCLK that has
failed, the input within 48 to 58 V for cause 3. -/
def exitMet (b : Standby) (m : Mod) : Bool :=
  let c := m.get rtCause
  m.exitNeeds && (!(m.refclkOut || decide (c = 2)) || decide (16 ≤ b.goods)) &&
    (decide (c ≠ 3) || decide (48000 ≤ b.vin ∧ b.vin ≤ 58000))

/-- GHOST_EXIT_CONDITION (R405). -/
def execGhostExitCondition (s : State) : Host.Outcome State Fault Refusal :=
  onMod s (fun m =>
    if m.ghost && exitMet s.sb m then
      if m.isSet rtExitWait then { m with exitHolds := true }.chipBegin else { m with exitHolds := true }
    else m)

/-- RESET_CTRL's write (Table 18-7). -/
def Mod.resetCtrl (m : Mod) (v : Word) : Mod :=
  let m := if bit v 1 then m.ghostIn 5 else m
  if bit v 0 then m.chipAsk else m

/-- CHIP_RESET (R396, R405). -/
def execChipReset (v : Word32) (s : State) : Host.Outcome State Fault Refusal := onDev s (fun m => m.resetCtrl (v.setWidth 64))

/-- GHOST (R404). -/
def execGhost (v : Word32) (s : State) : Host.Outcome State Fault Refusal := onDev s (fun m => m.resetCtrl (v.setWidth 64))

/-- STRATUM_LOW_INPUT_OFF (R406). -/
def execStratumLowInputOff (s : State) : Host.Outcome State Fault Refusal :=
  onMod s (fun m => if m.ghost && decide (s.sb.vin < 40000) then m.each allFields Mod.stratOff else m)

/-! Escalation (R397). -/

/-- A field's engine resets given up: a higher level covers them (R407). -/
def Mod.fieldEngines (m : Mod) (f : Nat) : Mod := let m := m.engineEnd f; m.setField f { m.field f with engWait := [] }

/-- A record of an escalation, from a level (R397, Table 18-11). -/
def Mod.escRecord (m : Mod) (level : Nat) (co : Option Nat) : Mod := m.resetRecord 8 level 0 0 co 0 0

/-- A reset past its limit (R397): the next level is applied. From context, the engines that have not stopped are reset. -/
def Mod.escalate (m : Mod) (sc : ResetScope) (stuck : List (CellRef × Fin 10)) : Mod :=
  match sc with
  | .context c =>
    if ((m.co c).reset.map (·.level)) = some 1 then
      (m.escRecord 1 (some c)).each stuck (fun m e =>
        if m.isJobCell c e.1.field e.1.lcell && unitOk e.2 then m.engineAsk e.1.field e.1.lcell e.2 else m)
    else m
  | .engine f =>
    if m.isSet (erBusy f) then
      let m := (m.escRecord 2 (m.coOf f)).fieldEngines f
      match m.coOf f with
      | some c => m.partitionBegin c
      | none => m.chipAsk
    else m
  | .partition c => if m.cuesWait c then (m.escRecord 3 (some c)).chipAsk else m
  | .chip => if m.isSet rtChipBusy then (m.escRecord 4 none).ghostIn 4 else m

/-- RESET_ESCALATION (R397, R398): it needs Prompter. -/
def execResetEscalation (x : Escalation) (s : State) : Host.Outcome State Fault Refusal :=
  onMod s (fun m => if m.prompterUp then m.escalate x.scope x.stuck else m)

/-- GENERATION_WAIT_END (R400): a value left is 34 ms old, and a reset that waited for it goes on. -/
def Mod.genWaitEnd (m : Mod) (g : GenScope) (v : Nat) : Mod :=
  match g with
  | .device =>
    let m := { m with dgens := sdel m.dgens v }
    if shas m.chipWaits 16 then m.chipDgen else m
  | .company c =>
    let m := m.modCo c (fun x => { x with gens := sdel x.gens v })
    let m := if shas m.chipWaits c then m.chipCgen c else m
    if ((m.co c).reset.map (·.waitGen)) = some true then m.bumpCgen c else m
  | .engine k u =>
    let m := { m with egens := sdel m.egens (egenKey k.field k.lcell u v) }
    if (m.field k.field).eng = some (k.lcell.val, u.val, true) then m.bumpEgen k.field k.lcell u else m

/-- GENERATION_WAIT_END (R400). -/
def execGenerationWaitEnd (g : GenScope) (val : BitVec 8) (s : State) : Host.Outcome State Fault Refusal :=
  onMod s (fun m => m.genWaitEnd g val.toNat)

end Sys2Proof.Machine
end

