-- ==== Sys2Proof/Machine/Clocks.lean ====
section
/-! DEFINITION. Clocks (14): the standby logic's start-up check, supervision of the sources, switches of a field's clock,
frequency measurement. -/

namespace Sys2Proof.Machine

/-! Straps (R446 to R448, Table 21-6). -/
def strapDelay (t : Straps) : Bool := decide (t.clkchk.val = 0)
def strapDelayCode (t : Straps) : Nat := if t.delay.val ≤ 3 then t.delay.val else 3
def strapPort (t : Straps) : Nat := if t.refclk.val ≤ 3 then t.refclk.val else 0

/-- Reserved levels, one bit a strap (R447). -/
def strapRsv (t : Straps) : Nat :=
  ofBool (decide (t.clkchk.val ≠ 0 ∧ t.clkchk.val ≠ 7)) + 2 * ofBool (decide (3 < t.delay.val)) +
    4 * ofBool (decide (3 < t.refclk.val ∧ t.refclk.val ≠ 7)) + 8 * ofBool (decide (t.boot.val ≠ 0 ∧ t.boot.val ≠ 7))

/-- STRAP_STAT (Table 21-7). -/
def strapStatus (t : Straps) : Nat :=
  t.clkchk.val * 2 ^ 4 + t.delay.val * 2 ^ 8 + t.refclk.val * 2 ^ 12 + t.boot.val * 2 ^ 16 + t.addr.val * 2 ^ 20 + strapRsv t * 2 ^ 24

/-! The module without its clocks or its supply. -/

/-- The registers of the health record (R357, R367). -/
def Mod.healthRegs (m : Mod) : SMap Word := m.regs.filter (fun e => decide (e.1 = 0x1108 ∨ e.1 = 0x1110))

/-- One field-row's fused values in its FIELD_ROWS entry (Table 16-7). -/
def Mod.loadRow (m : Mod) (f row L : Nat) (spare : Bool) : Mod :=
  ((m.put (rowL f row) L).put (rowFusedL f row) L).put (rowSpare f row) (ofBool spare)

/-- The registers that read the fuse map (Tables 16-3 and 22-1, FIELD_OPP, FIELD_ROWS, PORT_STAT). -/
def Mod.loadFuses (m : Mod) : Mod :=
  let z := m.fuses
  let m := (((m.setReg 0 z.identity).setReg 4 z.revision).setReg 8 z.eui48).setReg 0x10 z.serial
  let m := m.each z.vcodes (fun m e => m.setReg (fieldBase e.1 + 0x450) e.2)
  let m := m.each z.rows (fun m e => m.loadRow (e.1 / 16) (e.1 % 16) e.2.1 e.2.2)
  m.each z.spareLanes (fun m p => m.put (portSpare p) 1)

/-- Every domain but standby off (R435): the health record and the fuses are kept. -/
def Mod.off (m : Mod) (regs : SMap Word) : Mod :=
  { Mod.reset with
    regs := regs, health := m.health, minSvn := m.minSvn, out := m.out, fresh := m.fresh, now := m.now, perstLow := m.perstLow
    fuses := m.fuses }.loadFuses

/-- A field of a register where everything but RWS is lost (Table 00-5). -/
def stickyField (old : Word) (d : FieldD) : Word :=
  match d.acc with
  | .rws => old
  | .rwsHw => old
  | .rwsW1c => old
  | _ => setBits old d.hi d.lo d.rst

/-- What a register holds after the dark state, which is no power cycle (R329, R351). -/
def stickyReg (o : Nat) (v : Word) : Word :=
  if (0x400000 ≤ o ∧ o < 0x450000) ∨ o = 0x20018 ∨ o = 0x20020 ∨ o = 0x1108 ∨ o = 0x1110 then v
  else
    match regAt o with
    | some d => d.fields.foldl stickyField v
    | none => v

/-- A cause of ghost light that only a power cycle ends (Table 18-5), which the dark state is not. -/
def lastingCause (c : Nat) : Bool := decide (c = 1 ∨ c = 4)

/-- The module dark after it ran (R324, R329): the stratum is in self-refresh; a tripped field stays tripped until a power cycle
(R346). -/
def Mod.goDark (m : Mod) : Mod :=
  let m := m.each allFields Mod.stratSelf
  let regs := (m.regs.map (fun (e : Nat × Word) => (e.1, stickyReg e.1 e.2))).filter (fun (e : Nat × Word) => decide (e.2 ≠ resetVal e.1))
  let d := { m.off regs with
    strat := m.strat, stratBad := m.stratBad, stratLatent := m.stratLatent, stratLost := m.stratLost, stratOpen := m.stratOpen
    stratKnown := m.stratKnown, tags := [], numSet := m.numSet }
  let d := d.each allFields (fun d f => d.setStrat f (m.stratState f))
  let d := d.each allFields (fun d f => if m.get (fsDomain f) = 3 then d.put (fsDomain f) 3 else d)
  let d := d.put rtDgen m.health.dgen
  if lastingCause (m.get rtCause) then d.put dsGhost (m.get rtGhost) else (d.put rtGhost 0).put rtCause 0

/-! Start-up (R319 to R327, Tables 14-1 and 14-2). -/

/-- Table 14-1 begun from time 0 with the straps as sampled. -/
def Standby.begin (b : Standby) : Standby :=
  { b with
    phase := if strapDelay b.straps then .delayWait else .idle, attempts := 0, code := 0, trim := 128, trim0 := 128, outs := 0
    goods := 0, keptBy := none, droppedBy := none }

/-- POWER_GOOD (R319, R399, R448): the straps are sampled, and the module begins its time and its device generation. -/
def execPowerGood (st : Straps) (s : State) : Host.Outcome State Fault Refusal :=
  if s.sb.pwrEn && !s.sb.waitVin && decide (s.sb.phase = .off ∧ 47000 ≤ s.sb.vin) then
    let g := (s.m.health.dgen + 1) % 256
    let m := ((s.m.off s.m.healthRegs).put strapStat (strapStatus st)).put rtDgen g
    .next { s with
      sb := { s.sb with straps := st, wdogAt := 0 }.begin
      m := { m with now := 0, quiet := true, health := { m.health with dgen := g } } }
  else .next s

/-- An attempt failed with a code (R321): the next waits for its own step. -/
def Standby.failed (b : Standby) (code : Nat) : Standby := { b with phase := .idle, code := code }

/-- Whether a window is open. -/
def ClkPhase.window (p : ClkPhase) : Bool :=
  match p with
  | .coarse => true
  | .trim _ => true
  | .fine => true
  | _ => false

/-- A delay-element step: a window still open ends the attempt with 0x01, a management PLL that has not locked with 0x02 (R320: a
missing clock always ends in a verdict; log entry 38); then the next attempt, or dark. Delay mode has no further attempt. -/
def Standby.attempt (b : Standby) : Standby :=
  let b := if b.phase.window then b.failed 1 else if b.phase = .pll then b.failed 2 else b
  if b.phase = .idle then
    if b.attempts < 8 ∧ strapDelay b.straps = false then
      { b with phase := .coarse, attempts := b.attempts + 1, trim := 128, keptBy := none, droppedBy := none }
    else { b with phase := .dark }
  else b

/-- CLOCK_CHECK_ATTEMPT (R321, R322, R324). -/
def execClockCheckAttempt (s : State) : Host.Outcome State Fault Refusal := .next { s with sb := s.sb.attempt }

/-- One step of the trim search (R323): the bit tried is kept where the oscillator is not too fast; the next is tried. -/
def trimStep (code left count : Nat) : Nat :=
  let b := 2 ^ (left - 1)
  let c := if 3200 < count then code - b else code
  if left = 1 then c else c + b / 2

/-- How far a window's count lies from 3,200. -/
def countOff (n : Nat) : Nat := if 3200 < n then n - 3200 else 3200 - n

/-- The code the search ends at (R323): of the last kept code and the one above it, which was the last dropped, the one whose window
was nearer to 3,200. -/
def nearest (c : Nat) (keptBy droppedBy : Option Nat) : Nat :=
  match keptBy, droppedBy with
  | some a, some b => if b < a then Nat.min 255 (c + 1) else c
  | _, _ => c

/-- A window's verdict (Table 14-2). -/
def Standby.verdict (b : Standby) (count : Option Nat) : Standby :=
  if !b.phase.window then b
  else
    match count with
    | none => b.failed 1
    | some n =>
      if n = 0 then b.failed 2
      else
        match b.phase with
        | .coarse =>
          if 2400 ≤ n ∧ n ≤ 4000 then { b with phase := .trim 8, trim := 128, keptBy := none, droppedBy := none } else b.failed 3
        | .trim k =>
          let b := if 3200 < n then { b with droppedBy := some (countOff n) } else { b with keptBy := some (countOff n) }
          let c := if 1 < k then trimStep b.trim k n else nearest (trimStep b.trim k n) b.keptBy b.droppedBy
          if 1 < k then { b with phase := .trim (k - 1), trim := c }
          else if c = 0 ∨ c = 255 then { b with trim := c }.failed 4
          else { b with phase := .fine, trim := c }
        | _ => if 3184 ≤ n ∧ n ≤ 3216 then { b with phase := .pll, code := 0, trim0 := b.trim } else b.failed 5

/-- CLOCK_WINDOW_VERDICT (R322, R323). -/
def execClockWindowVerdict (count : Option Nat) (s : State) : Host.Outcome State Fault Refusal :=
  .next { s with sb := s.sb.verdict count }

/-- The trim search over the counts of its windows: the code, and how far the last kept and the last dropped code counted. -/
def trimWalk (counts : List Nat) : Nat × Option Nat × Option Nat :=
  (List.range 8).foldl (fun c i =>
    let n := (counts[i]?).getD 0
    (trimStep c.1 (8 - i) n, if 3200 < n then (c.2.1, some (countOff n)) else (some (countOff n), c.2.2))) (128, none, none)

/-- The code the trim search ends at (R323). -/
def trimSearch (counts : List Nat) : Nat := let r := trimWalk counts; nearest r.1 r.2.1 r.2.2

/-- DELAY_MODE_WAIT_END (R327): no edge makes the device dark with 0x06. -/
def execDelayModeWaitEnd (edge : Bool) (counts : List Nat) (s : State) : Host.Outcome State Fault Refusal :=
  if s.sb.phase = .delayWait then
    if edge then
      let c := trimSearch counts
      .next { s with
        sb := { s.sb with phase := .pll, code := 0, trim := c, trim0 := c }
        m := s.m.put ckTrimSat (ofBool (decide (c = 0 ∨ c = 255))) }
    else .next { s with sb := { s.sb with phase := .dark, code := 6 } }
  else .next s

/-- The boot ROM begun: measurement registers zero but for the ROM's own (R411), images not loaded yet, no firmware running. -/
def Mod.romBoot (m : Mod) : Mod :=
  let m := m.each (List.range 7) (fun m k => m.each (List.range 7) (fun m w => m.resetReg (measOff k + 8 * w)))
  let m := m.each (List.range 6) (fun m w => m.setReg (measOff 0 + 8 * w) (Config.romDigest w))
  let m := (m.put (miValid 0) 1).put dsValid 0
  { m with prompter := 1, nextImage := 1, spdm := [] }

/-- The voltage of the input as the module reads it: PWR_STAT.VIN, and the events of the ranges about the operating range (R337,
Table 15-15). -/
def Mod.readVin (m : Mod) (mv : Nat) : Mod :=
  let m := m.put psVin (mv / 20)
  let m := if mv < 48000 then m.pwrSet 5 6 0 else m
  if 58000 < mv then m.pwrSet 6 6 0 else m

/-- MANAGEMENT_PLL_LOCK (R321, R336): CLK_STAT is written, and Prompter's ROM boots. -/
def execManagementPllLock (s : State) : Host.Outcome State Fault Refusal :=
  if s.sb.phase = .pll then
    let b := s.sb
    let m := (((s.m.put ckTrim b.trim).put ckCode 0).put ckAttempts (if strapDelay b.straps then 0 else b.attempts)).put ckPort (strapPort b.straps)
    let m := (m.put ckDelay (strapDelayCode b.straps)).put ckMode (ofBool (strapDelay b.straps))
    .next { s with sb := { b with phase := .running, outs := 0, goods := 0 }, m := (m.romBoot.put buStep 1).readVin b.vin }
  else .next s

/-- Whether the standby domain runs (R434). -/
def Standby.on (b : Standby) : Bool := decide (36000 ≤ b.vin)

/-- STANDBY_READ_CODE (R324, R449). -/
def execStandbyReadCode (s : State) : Host.Outcome State Fault Refusal :=
  onMod s (fun m => if s.sb.on then m.emit (.smbus s.sb.code) else m)

/-- STANDBY_READ_ATTEMPTS (R324, R449). -/
def execStandbyReadAttempts (s : State) : Host.Outcome State Fault Refusal :=
  onMod s (fun m => if s.sb.on then m.emit (.smbus s.sb.attempts) else m)

/-- STANDBY_RESTART (R326): the straps as first sampled; ignored unless the device is dark. -/
def execStandbyRestart (s : State) : Host.Outcome State Fault Refusal :=
  if s.sb.phase = .dark then .next { s with sb := s.sb.begin, m := s.m.put strapStat (strapStatus s.sb.straps) } else .next s

/-! Supervision in operation (R328 to R330, Table 14-3). -/

/-- A class 0x09 record: the code of Table 14-2, a free value for an event that has none (log entry 2). -/
def Mod.clockRecord (m : Mod) (kind place : Nat) (code : Option Nat) : Mod :=
  let d := m.draw
  d.2.recordFree ⟨0, 9, kind, place, 8 * 256, 0, none, code.getD (d.1.toNat % 256)⟩

/-- REFCLK or the mesh PLL failed (Table 14-3): ghost light; a lost REFCLK takes every PCIe link down first. -/
def Mod.refclkFail (m : Mod) (code : Nat) : Mod :=
  let m := if code = 0x14 then m else { m with refclkOut := true, exitHolds := false }
  (m.clockRecord 6 0 (some code)).ghostIn 2

/-- Whether the module's clocks run. -/
def Standby.runs (b : Standby) : Bool := decide (b.phase = .running)

/-- One operating window of the frequency monitor (R328): the standby logic, the module, and whether REFCLK fails. -/
def monitor (b : Standby) (m : Mod) (n : Nat) : Standby × Mod × Bool :=
  let far := decide (n < 3104 ∨ 3296 < n)
  let b := { b with outs := if far then b.outs + 1 else 0, goods := if 3184 ≤ n ∧ n ≤ 3216 then b.goods + 1 else 0 }
  if 2 ≤ b.outs then (b, m, true)
  else
    let tol := if far then m.put (ckEvent 0) 1 else m
    if 3191 ≤ n ∧ n ≤ 3209 then (b, tol, false)
    else
      let down := 3200 < n
      let t := if down then b.trim - 1 else Nat.min 255 (b.trim + 1)
      if (down ∧ b.trim + 7 < b.trim0) ∨ (¬down ∧ b.trim0 + 7 < b.trim) then (b, m, true)
      else if t = b.trim then (b, tol, false)
      else ({ b with trim := t }, (tol.put (ckEvent 5) 1).put ckTrim t, false)

/-- FREQUENCY_MONITOR_WINDOW (R328, R329, R404): after REFCLK has failed, windows only count towards its return. -/
def execFrequencyMonitorWindow (count : Nat) (s : State) : Host.Outcome State Fault Refusal :=
  if s.sb.runs then
    if s.m.refclkOut then
      .next { s with sb := { s.sb with goods := if 3184 ≤ count ∧ count ≤ 3216 then s.sb.goods + 1 else 0 } }
    else
      let r := monitor s.sb s.m count
      if r.2.2 then .next { s with sb := { r.1 with code := 0x11, outs := 0, goods := 0 }, m := r.2.1.refclkFail 0x11 }
      else .next { s with sb := r.1, m := r.2.1 }
  else .next s

/-- LOSS_OF_CLOCK (R329, Table 14-3). -/
def execLossOfClock (k : ClkSrc) (s : State) : Host.Outcome State Fault Refusal :=
  if s.sb.runs then
    match k with
    | .refclk => .next { s with sb := { s.sb with code := 0x10, goods := 0 }, m := s.m.refclkFail 0x10 }
    | .house => .next { s with sb := { s.sb with code := 0x12, phase := .dark }, m := s.m.goDark }
    | .mgmtPll => .next { s with sb := { s.sb with code := 0x13, phase := .dark }, m := s.m.goDark }
    | .meshPll => .next { s with sb := { s.sb with code := 0x14, goods := 0 }, m := s.m.refclkFail 0x14 }
    | .stratPll f =>
      onField s f (fun m =>
        let m := (m.put (ckEvent 2) 1).clockRecord 5 f none
        if m.stratState f = ssOff then m else m.setStrat f ssFault)
    | .serdesPll p => onPort s p (fun m => ((m.put (ckEvent 3) 1).clockRecord 3 p none).portDown p 5)
    | .pciePll hp =>
      onMod s (fun m => { (m.put (ckEvent 4) 1).clockRecord 4 hp none with linkDown := sadd m.linkDown hp })
  else .next s

/-- Whether rehearsals still run, in REH_STAT. -/
def Mod.countRehearsals (m : Mod) : Mod := m.put rhRunning (ofBool (allFields.any (fun f => !(m.field f).rehearsing.isEmpty)))

/-- A field PLL that lost lock (R330, R332, R407): the field's cells are lost, its company gets a partition reset, and relock is
tried. -/
def Mod.pllLoss (m : Mod) (f : Nat) : Mod :=
  let d := m.get (fsDomain f)
  if d = 1 ∨ d = 2 then
    let m := ((m.put (ckEvent 1) 1).clockRecord 5 f none).fieldQuiet f
    let m := (((m.put (fcLock f) 0).put (fcSrc f) 1).put (fsDomain f) 0).freshField f
    let m := (m.setField f { m.field f with tries := 1 }).countOn.countRehearsals
    match m.coOf f with
    | some c => (m.put (ctReady c) 0).partitionBegin c
    | none => m
  else m

/-- FIELD_PLL_LOSS (R330). -/
def execFieldPllLoss (f : Fin 72) (s : State) : Host.Outcome State Fault Refusal := onField s f (fun m => m.pllLoss f)

/-! Trace control (R17, R429, R430). -/

/-- Whether a trace area lies within the slot, below the scene store and, in the encore field, the staging area. -/
def Mod.traceFits (m : Mod) (f : Nat) (v : Word) : Bool :=
  match m.coOf f with
  | none => false
  | some c =>
    let top := m.slotSize - m.storeBytes c -
      (if m.get (encMode c) = 1 ∧ m.get (encField c) = f then m.stagingBytes c else 0)
    decide (1 ≤ bits v 23 12 ∧ (bits v 47 24 + bits v 23 12) * 0x200000 ≤ top)

/-- A TRACE_CTRL value with a SIZE outside its range, which leaves that field as it was (R9). -/
def Mod.traceVal (m : Mod) (f : Nat) (v : Word) : Word := if bits v 23 12 = 0 then setBits v 23 12 (m.get (tcSize f)) else v

/-- TRACE_CTRL's write to a field that is on. EN with no area at all is discarded (log entry 41). -/
def Mod.traceCtrl (m : Mod) (f : Nat) (w : Word) : Mod :=
  let o := fieldBase f + 0x490
  let v := m.traceVal f w
  if bit v 63 then
    if !m.traceFits f v then m.put (tsLost f) 1
    else if m.isSet (tcEn f) then m.plainWrite o v
    else
      let m := (((m.plainWrite o v).put (tsLines f) 0).put (tsDropped f) 0).put (tsFull f) 0
      (m.put (tsActive f) 1).setField f { m.field f with frames := 0, dropped := 0, lines := 0 }
  else (m.plainWrite o v).put (tsActive f) 0

/-- TRACE_CTRL's write: to a field that is off it waits for its power-up (R17). -/
def Mod.traceWrite (m : Mod) (f : Nat) (v : Word) : Mod :=
  if m.fieldOn f then m.traceCtrl f v else m.writeLater (fieldBase f + 0x490) v

/-- What waited for a field's power-up, in order (R17). -/
def Mod.traceLate (m : Mod) (f : Nat) : Mod :=
  let o := fieldBase f + 0x490
  let l := if m.ghost then [] else m.late.filter (fun e => decide (e.1 = o))
  if l.isEmpty then m else { m with late := m.late.filter (fun e => decide (e.1 ≠ o)) }.each l (fun m e => m.traceCtrl f e.2)

/-- A field's event counters zeroed as its compute domain powers up (R419). -/
def Mod.zeroCounters (m : Mod) (f : Nat) : Mod :=
  { m with ctr := m.ctr.filter (fun e =>
      let kind := e.1 / 64 / 512 / 128 / 256
      !(decide (e.1 / 64 / 512 % 128 = f) && decide (1 ≤ kind ∧ kind ≤ 6))) }

/-- Whether the hard threshold or a sensor fault keeps a field on the fallback clock at OP0's voltage (R346). -/
def Mod.kept (m : Mod) (f : Nat) : Bool := m.isSet (fsHard f) || m.isSet (fsSensor f)

/-- A field whose compute domain is in regulation (R56, R152, R338, R339, R341, R345, R346, R419): zeroed cells, CYCLE from 0, the
fallback clock, the PLL locking towards the effective point unless the field is kept on the fallback clock; holds at none, or at
HOLD_MAX under the module's hard limit or a sensor fault. A write of TRACE_CTRL that waited takes effect (R17). -/
def Mod.fieldStart (m : Mod) (f : Nat) : Mod :=
  let m := (((m.put (fsDomain f) 2).freshField f).zeroCounters f).takeCtrl f
  let e := if m.kept f then 0 else m.effective f
  let m := (((m.put (fsOp f) e).put (fcSrc f) 1).put (fcFreq f) 0x28).put (fcBusy f) (ofBool (!m.kept f))
  let m := (m.put (fsLimited f) 0).put (fsHolds f) (if m.hardHold || m.isSet (fsSensor f) then m.holdMax f else 0)
  let x := m.field f
  ((m.setField f { x with
    fabricOn := true, cycle := 0, switching := if m.kept f then 0 else 2, freq := if m.kept f then 0 else opFreq e, switches := []
    nP := 0, floor := 0, anchor := 0, decay := false, ups := x.ups + 1 }).capPEff).traceLate f

/-- A relock try's end (R330): success powers the field up again; the fourth failure sets PLL_FAULT. -/
def Mod.relock (m : Mod) (f : Nat) (ok : Bool) : Mod :=
  let x := m.field f
  if x.tries = 0 then m
  else if ok then
    let m := ((m.setField f { x with tries := 0 }).fieldStart f).put (fcLock f) 1
    (m.setField f { m.field f with switching := if m.kept f then 0 else 3 }).countOn
  else if 4 ≤ x.tries then (m.setField f { x with tries := 0 }).put (fcFault f) 1
  else m.setField f { x with tries := x.tries + 1 }

/-- FIELD_PLL_RELOCK_TRY (R330). -/
def execFieldPllRelockTry (f : Fin 72) (ok : Bool) (s : State) : Host.Outcome State Fault Refusal := onField s f (fun m => m.relock f ok)

/-! Switches (R331, R332). -/

/-- A switch counted: SWITCHES and the field's event counter (Table 20-1). -/
def Mod.switched (m : Mod) (f : Nat) : Mod := ((m.addWrap (fcSwitches f) 1).count 6 3 f 0 0 1).endSwitch f

/-- The field held for a switch: CYCLE counts the 80 held cycles (R331). -/
def Mod.holdSwitch (m : Mod) (f : Nat) : Mod := let x := m.field f; m.setField f { x with cycle := x.cycle + 80 }

/-- CLOCK_SWITCH: the move to the fallback clock, or back to the PLL. A field that is to stay on the fallback clock and runs on it already
makes no switch. -/
def Mod.clockSwitch (m : Mod) (f : Nat) : Mod :=
  let x := m.field f
  if x.switching = 1 then
    let on := m.isSet (fcSrc f)
    let m := if on then m else ((m.holdSwitch f).put (fcSrc f) 1).put (fcFreq f) 0x28
    if x.freq = 0 then (if on then m.endSwitch f else m.switched f) else (m.put (fcLock f) 0).setField f { m.field f with switching := 2 }
  else if x.switching = 3 then ((((m.holdSwitch f).put (fcSrc f) 0).put (fcFreq f) x.freq)).switched f
  else m

/-- CLOCK_SWITCH (R331). -/
def execClockSwitch (f : Fin 72) (s : State) : Host.Outcome State Fault Refusal :=
  onField s f (fun m => if m.fieldOn f then m.clockSwitch f else m)

/-- FIELD_PLL_LOCK (R332). -/
def execFieldPllLock (f : Fin 72) (s : State) : Host.Outcome State Fault Refusal :=
  onField s f (fun m =>
    if (m.field f).switching = 2 then (m.put (fcLock f) 1).setField f { m.field f with switching := 3 } else m)

/-! Frequency measurement (R334). -/

/-- FREQ_MEAS_CTRL's write: GO takes the source that is to be counted. -/
def Mod.freqCtrl (m : Mod) (v : Word) : Mod :=
  if bit v 31 then
    if m.isSet frBusy then m
    else
      let m := ((m.plainWrite 0x10010 v).put frBusy 1).put frValid 0
      { m with measSrc := m.get fmSrc }
  else m.plainWrite 0x10010 v

/-- FREQ_MEAS_GO (R334). -/
def execFreqMeasGo (v : Word32) (s : State) : Host.Outcome State Fault Refusal := onDev s (fun m => m.freqCtrl (v.setWidth 64))

/-- The measurement's end, with the edges of the source in the window: divided by 16 for SRC above 0x04. -/
def Mod.freqDone (m : Mod) (edges : Nat) : Mod :=
  if m.isSet frBusy then
    let n := if m.measSrc ≤ 4 then edges else edges / 16
    (((m.put frBusy 0).put frValid 1).put frNoEdge (ofBool (decide (edges = 0)))).put frCount n
  else m

/-- FREQ_MEAS_DONE (R334). -/
def execFreqMeasDone (edges : Nat) (s : State) : Host.Outcome State Fault Refusal := onMod s (fun m => m.freqDone edges)

end Sys2Proof.Machine
end

