-- ==== Sys2Proof/Machine/PowerCmds.lean ====
section
/-! DEFINITION. Power, thermal control and energy (15), and the power input (R434, R435). -/

namespace Sys2Proof.Machine

/-! The module's limits (R338, R339). -/

/-- One step of the module limiter, with P_mod in watts and the coolant's temperatures in quarter degrees (Table 15-13; log entry 39). -/
def Mod.limiter (m : Mod) (w inlet outlet : Nat) : Mod :=
  let m := ((m.put psPower (Nat.min w 0xFFFF)).put psInlet (Nat.min inlet 1023)).put psOutlet (Nat.min outlet 1023)
  let lim := m.get modLim
  let n := m.onFields.length
  if lim < w then (if n = 0 then m else m.setPEff (m.pEff - ceilDiv (w - lim) n)).pwrSet 0 6 0
  else if w + 500 < lim then m.setPEff (m.pEff + 2)
  else m.capPEff

/-- MODULE_LIMITER_STEP (R338, R353). -/
def execModuleLimiterStep (x : ModuleSample) (s : State) : Host.Outcome State Fault Refusal :=
  onMod s (fun m => if m.prompterUp then m.limiter x.watts x.inlet x.outlet else m)

/-- The input over 100 us: above 34 kW every field holds HOLD_MAX, until it is below 30 kW. -/
def Mod.hardLimit (m : Mod) (w : Nat) : Mod :=
  if 34000 < w then
    let m := { m with hardHold := true }.each m.onFields (fun m f => m.put (fsHolds f) (m.holdMax f))
    m.pwrSet 1 6 0
  else if w < 30000 then { m with hardHold := false }
  else m

/-- HARD_LIMIT (R339). -/
def execHardLimit (watts : Nat) (s : State) : Host.Outcome State Fault Refusal :=
  onMod s (fun m => if m.prompterUp then m.hardLimit watts else m)

/-! The power sequencer (R340, R341, R403). -/

/-- What a field's engines had under way as its compute domain is cut: requests inside it get 0x04, its own are abandoned (Table
18-4). -/
def Mod.cutCompute (m : Mod) (f : Nat) : Mod :=
  let m := m.each (List.range 384) (fun m l =>
    let at_ := cellRouter f l
    m.each (m.cell f l).inbound (fun m r => m.answer at_.1 at_.2 (statusReply r 4) r.co))
  let mine := fun (u : TagUse) => match ownerCell u.req.owner with | some p => decide (p.1 = f) | none => false
  let tags := m.tags.map (fun (e : Nat × Option TagUse) => (e.1, e.2.map (fun u => if mine u then { u with dead := true } else u)))
  let m := (({ m with tags := tags }.freshField f).fieldQuiet f).put (fsDomain f) 1
  let m := m.setField f { m.field f with drainCompute := false }
  ((m.put (fcLock f) 0).countOn).countRehearsals

/-- A field's mesh routers cut. -/
def Mod.cutFabric (m : Mod) (f : Nat) : Mod :=
  let m := m.each (List.range 384) (fun m l => let r := cellRouter f l; m.drainRouter r.1 r.2)
  m.setField f { m.field f with drainFabric := false, fabricOn := false }

/-- DOMAIN_DRAIN_CUT (R403): a drain at its limit; optical and host edges power down only at entry to ghost light, where what they
carry goes at once. -/
def execDomainDrainCut (dm : Domain) (s : State) : Host.Outcome State Fault Refusal :=
  match dm with
  | .compute f => onField s f (fun m => if (m.field f).drainCompute then m.cutCompute f else m)
  | .fabric f => onMod s (fun m => if (m.field f).drainFabric then m.cutFabric f else m)
  | .optical p => onPort s p id
  | .host _ => onMod s id

/-- A field of a wave that begins to ramp, or to drain. Ghost light powers no domain up; on the way out of it only what an enabled
company needs (R340, R404, R405). -/
def Mod.rampField (m : Mod) (on : Bool) (f : Nat) : Mod :=
  if on then
    (if m.present f && decide (m.get (fsDomain f) = 0) && !m.isSet (fcFault f) && !m.keptDown && (!m.ghost || m.wantsPower f) then
      m.put (fsDomain f) 1
    else m)
  else if m.fieldOn f && !m.wantsPower f then m.setField f { m.field f with drainCompute := true }
  else m

/-- POWER_WAVE_START: up to 9 fields of the oldest request, in increasing number. -/
def Mod.waveStart (m : Mod) : Mod :=
  match m.wave, m.power with
  | none, (on, fs) :: rest =>
    let w := fs.take 9
    let more := fs.drop 9
    let m := { m with wave := some (on, w), power := if more.isEmpty then rest else (on, more) :: rest }
    m.each w (fun m f => m.rampField on f)
  | _, _ => m

/-- POWER_WAVE_START (R341). -/
def execPowerWaveStart (s : State) : Host.Outcome State Fault Refusal := onMod s Mod.waveStart

/-- Fabric, and stratum from off, as they come with a wave at bring-up and on the way out of ghost light (R340, R341). -/
def Mod.fabricUp (m : Mod) (f : Nat) : Mod :=
  let m := m.setField f { m.field f with fabricOn := true }
  if m.present f && decide (m.stratState f = ssOff) then m.stratTrain f else m

/-- A field at the end of its wave's ramp. -/
def Mod.rampEnd (m : Mod) (on : Bool) (f : Nat) : Mod :=
  if on then
    let m := if decide (m.get buStep = 3) || (m.ghost && m.isSet rtChipBusy) then m.fabricUp f else m
    if m.get (fsDomain f) = 1 then m.fieldStart f else m
  else
    let m := if (m.field f).drainCompute then m.cutCompute f else m
    let m := if (m.field f).drainFabric then m.cutFabric f else m
    if m.get (fsDomain f) = 1 then m.put (fsDomain f) 0 else m

/-- POWER_WAVE_RAMP_DONE (R341). -/
def execPowerWaveRampDone (s : State) : Host.Outcome State Fault Refusal :=
  onMod s (fun m =>
    match m.wave with
    | none => m
    | some (on, fs) => ({ m with wave := none }.each fs (fun m f => m.rampEnd on f)).countOn)

/-! Holds and temperature (R345, R346). -/

/-- A quotient rounded to the nearest whole number, halves away from zero. -/
def roundDiv (a : Int) (b : Nat) : Int :=
  let n : Int := (2 * a.natAbs + b) / (2 * b)
  if a < 0 then -n else n

/-- The power term of R345. -/
def powerTerm (nP gain p10 lim top : Nat) : Nat :=
  let n : Int := (nP : Int) + roundDiv ((gain : Int) * ((p10 : Int) - (lim : Int))) 256
  Nat.min top n.toNat

/-- The thermal term of R345, T in quarter degrees. -/
def thermTerm (gain t top : Nat) : Nat := if t < 380 then 0 else Nat.min top (ceilDiv (gain * (t - 379)) 4)

/-- A field sent to the fallback clock at OP0's voltage; a switch in progress is abandoned (R346, R348). -/
def Mod.toFallback (m : Mod) (f : Nat) : Mod :=
  let m := (m.put (fsOp f) 0).setField f { m.field f with switching := 0, switches := [] }
  m.beginSwitch f 0

/-- A field that the hard threshold or a sensor fault keeps on the fallback clock, sent back there where it runs or heads elsewhere (R346). -/
def Mod.keepFallback (m : Mod) (f : Nat) : Mod :=
  if m.kept f && !(m.isSet (fcSrc f) && decide ((m.field f).switching = 0)) && decide ((m.field f).switching ≠ 1 ∨ (m.field f).freq ≠ 0) then
    m.toFallback f
  else m

/-- CONTROL_STEP: P10 in watts, the highest temperature, the working sensors; what was written to FIELD_PWR_CTRL and FIELD_VAMP
takes effect (R352). -/
def Mod.controlStep (m : Mod) (f p10 t sensors : Nat) : Mod :=
  let m := (m.takeCtrl f).capPEff
  let lim := Nat.min (m.pLim f) m.pEff
  let top := m.holdMax f
  let x := m.field f
  let nP := if m.hardHold then x.nP else powerTerm x.nP (m.get (fpPGain f)) p10 lim top
  let m := m.setField f { x with nP := nP, vamped := false }
  let m := ((m.put (fsPower f) (Nat.min p10 511)).put (fsTemp f) (Nat.min t 1023)).put (fsVamp f) (ofBool x.vamped)
  let m := (m.put (fsLimited f) (ofBool (decide (0 < nP)))).put (fsSoft f) (ofBool (decide (380 ≤ t)))
  let m := if 380 ≤ t then m.pwrSet 2 5 f else m
  let m := if 420 ≤ t ∧ m.get (fsHard f) = 0 then ((m.put (fsHard f) 1).pwrSet 3 5 f).toFallback f else m
  let m := if sensors < 2 ∧ m.get (fsSensor f) = 0 then ((m.put (fsSensor f) 1).pwrSet 8 5 f).toFallback f else m
  let m := m.keepFallback f
  let n := if m.hardHold || m.isSet (fsSensor f) then top else Nat.max nP (thermTerm (m.get (fpTGain f)) t top)
  (m.put (fsHolds f) n).toEffective f

/-- CONTROL_STEP (R345, R346). -/
def execControlStep (f : Fin 72) (p10 : Nat) (t : Nat) (sensors : Fin 5) (s : State) : Host.Outcome State Fault Refusal :=
  onField s f (fun m => if m.fieldOn f then m.controlStep f p10 t sensors else m)

/-- HARD_THRESHOLD_END (R346): the field switches to its effective point. -/
def execHardThresholdEnd (f : Fin 72) (s : State) : Host.Outcome State Fault Refusal :=
  onField s f (fun m =>
    if m.isSet (fsHard f) then
      let m := m.put (fsHard f) 0
      if m.isSet (fsSensor f) || !m.fieldOn f then m
      else (m.put (fsOp f) (m.effective f)).requestSwitch f (opFreq (m.effective f))
    else m)

/-- THERMAL_TRIP (R346, R444): the field is off until a power cycle. -/
def execThermalTrip (f : Fin 72) (s : State) : Host.Outcome State Fault Refusal :=
  if s.m.present f then
    let d := s.m.get (fsDomain f)
    if d = 1 ∨ d = 2 then
      .next { s with
        sb := { s.sb with thermtrip := true }
        m := (((s.m.put (fsDomain f) 3).pwrSet 4 5 f).freshField f).ghostIn 1 }
    else .next s
  else .next s

/-! Vamp (R349, R350) and energy (R351). -/

/-- VAMP_STEP: A, the natural current and the current of L, in milliamperes. -/
def Mod.vampStep (m : Mod) (f avg natural cap : Nat) : Mod :=
  let x := m.field f
  let fa := m.vampFrac f * avg / 100
  if m.vampFrac f = 0 ∨ m.fieldOn f = false then m
  else
    let y :=
      if x.floor ≤ fa then { x with floor := Nat.min cap fa, decay := false }
      else
        let anchor := if x.decay then x.anchor else x.floor
        { x with floor := Nat.min cap (Nat.max fa (x.floor - anchor / m.vampRamp f)), decay := true, anchor := anchor }
    m.setField f { y with vamped := x.vamped || decide (natural < y.floor) }

/-- VAMP_STEP (R349). -/
def execVampStep (f : Fin 72) (avg : Nat) (natural : Nat) (cap : Nat) (s : State) : Host.Outcome State Fault Refusal :=
  onField s f (fun m => m.vampStep f avg natural cap)

/-- A counter of millijoules moved by microjoules, with the remainder below 1 mJ carried (R351). -/
def Mod.addEnergy (m : Mod) (c : Fld) (rem n : Nat) : Mod × Nat := (m.addWrap c ((rem + n) / 1000), (rem + n) % 1000)

/-- A company's counters (Table 15-8). -/
def Mod.coEnergy (m : Mod) (c n : Nat) : Mod :=
  let x := m.co c
  let a := if m.isSet (cdEn c) then m.addEnergy (energyCo c) x.remCo n else (m, x.remCo)
  let b := if (m.co c).prod.isSome then a.1.addEnergy (energyProd c) x.remProd n else (a.1, x.remProd)
  let d := if m.hasJob c then b.1.addEnergy (energyJob c) x.remJob n else (b.1, x.remJob)
  d.1.modCo c (fun y => { y with remCo := a.2, remProd := b.2, remJob := d.2 })

/-- The energy of a company's fields, of those of each field. -/
def Mod.energyOf (m : Mod) (per : List Nat) (c : Nat) : Nat := ((m.coFields c).map (fun f => (per[f]?).getD 0)).foldl (· + ·) 0

/-- ENERGY_UPDATE: microjoules at the input and of each field. -/
def Mod.energy (m : Mod) (inp : Nat) (per : List Nat) : Mod :=
  let sum := (allCos.map (m.energyOf per)).foldl (· + ·) 0
  let m := m.each allCos (fun m c => m.coEnergy c (m.energyOf per c))
  let a := m.addEnergy energyModule m.remModule inp
  let shared : Int := Int.ofNat a.1.remShared + Int.ofNat inp - Int.ofNat sum
  let m := { a.1 with remModule := a.2, remShared := (shared % 1000).toNat }
  m.setReg energyShared.off (m.reg energyShared.off + BitVec.ofInt 64 (shared / 1000))

/-- ENERGY_UPDATE (R351). -/
def execEnergyUpdate (module : Nat) (perField : List Nat) (s : State) : Host.Outcome State Fault Refusal :=
  onMod s (fun m => if s.sb.runs then m.energy module perField else m)

/-! The input (R337, R404, R434, R435). -/

/-- INPUT_POWER_FAULT (R337). -/
def execInputPowerFault (s : State) : Host.Outcome State Fault Refusal :=
  onMod s (fun m => if s.sb.runs && decide (s.sb.vin < 46000 ∨ 60000 < s.sb.vin) then m.ghostIn 3 else m)

/-- PWR_EN_RISE (R435): power-up waits for 47 V. -/
def execPwrEnRise (s : State) : Host.Outcome State Fault Refusal :=
  if s.sb.pwrEn then .next s
  else .next { s with sb := { s.sb with pwrEn := true, waitVin := decide (s.sb.vin < 47000) } }

/-- PWR_EN_FALL (R435): a low of 1 ms; every domain but standby powers off. -/
def execPwrEnFall (s : State) : Host.Outcome State Fault Refusal :=
  .next { s with
    sb := { s.sb with pwrEn := false, waitVin := false, phase := .off, thermtrip := false }, m := s.m.off s.m.healthRegs }

/-- INPUT_VOLTAGE_CROSSING (R337, R404, R434, R435). -/
def execInputVoltageCrossing (mv : Nat) (s : State) : Host.Outcome State Fault Refusal :=
  if mv < 36000 then .next { s with sb := { Standby.reset with vin := mv, pwrEn := s.sb.pwrEn, waitVin := s.sb.pwrEn }, m := s.m.off s.m.healthRegs }
  else
    let sb := { s.sb with vin := mv, waitVin := s.sb.waitVin && decide (mv < 47000) }
    if s.sb.runs then
      let m := s.m.readVin mv
      let m := if m.get rtCause = 3 ∧ (mv < 48000 ∨ 58000 < mv) then { m with exitHolds := false } else m
      .next { s with sb := sb, m := m }
    else .next { s with sb := sb }

/-- INLET_OUT_OF_RANGE (R347), in quarter degrees. -/
def execInletOutOfRange (t : Nat) (s : State) : Host.Outcome State Fault Refusal :=
  onMod s (fun m =>
    if s.sb.runs then
      let m := m.put psInlet (Nat.min t 1023)
      if t < 80 ∨ 140 < t then m.pwrSet 7 6 0 else m
    else m)

end Sys2Proof.Machine
end

