-- ==== Sys2Proof/Machine/Bringup.lean ====
section
/-! DEFINITION. Boot and measurement (R410 to R412), bring-up (R354 to R365) and the watchdog (R398). -/

namespace Sys2Proof.Machine

/-! Measurement registers (R411, R418). -/

/-- The 48 bytes of a measurement register. -/
def Mod.measBytes (m : Mod) (k : Nat) : List Byte := wordBytes ((List.range 6).map (fun w => m.reg (measOff k + 8 * w)))

/-- A measurement register set to 48 bytes, and VALID. -/
def Mod.setMeas (m : Mod) (k : Nat) (bs : List Byte) : Mod := (m.setBytes (measOff k) bs).put (miValid k) 1

/-- A digest extended into a register (R411). -/
def Mod.extend (m : Mod) (k : Nat) (d : List Byte) : Mod := m.setMeas k (sha384 (m.measBytes k ++ d))

/-- The fuse map's digest measured (R359, R411). -/
def Mod.measureFuses (m : Mod) : Mod := m.extend 4 ((List.range 48).map Config.fuseDigest)

/-! Failure (R354, R405, R410). -/

/-- Bring-up fails in a step: ghost light, and after the ROM boot step Prompter stays in its ROM service loop. -/
def Mod.bringupFails (m : Mod) (step : Nat) : Mod :=
  let m := ((m.put buFailStep step).put buStep 10).ghostIn 6
  if step = 1 then { (m.put rtRomLoop 1).put rtBooting 0 with prompter := 3 } else m

/-! The boot ROM (R410 to R412). -/

/-- Whether BOOT_SRC names a source (Table 21-6): reserved levels load no image. -/
def Mod.bootSrcOk (m : Mod) : Bool := let l := bits (m.reg strapStat.off) 18 16; decide (l = 0 ∨ l = 7)

/-- Whether an image may run: its signature and its security version number (R410). -/
def Mod.imageOk (m : Mod) (im : BootImage) : Bool := Config.sigOk im.bytes im.sig && decide (m.minSvn ≤ im.svn.toNat)

/-- The lowest SVN among the images loaded so far, in register 6 (R412). -/
def Mod.noteSvn (m : Mod) (svn : Nat) : Mod :=
  let old := bits (m.reg (measOff 6)) 31 0
  let v := if m.nextImage = 1 then svn else Nat.min old svn
  let m := m.setReg (measOff 6) (BitVec.ofNat 64 v)
  if m.nextImage = 3 then m.put (miValid 6) 1 else m

/-- An image measured, the minimum SVN raised, the image handed over. -/
def Mod.takeImage (m : Mod) (im : BootImage) (backup : Bool) : Mod :=
  let k := m.nextImage
  let m := ((m.extend k (sha384 im.bytes)).put (miSvn k) im.svn.toNat).put (miBackup k) (ofBool backup)
  { m.noteSvn im.svn.toNat with minSvn := Nat.max m.minSvn im.minSvn.toNat, nextImage := k + 1 }

/-- BOOT_IMAGE_LOAD: the image, or its backup copy; where neither may run, bring-up fails. -/
def Mod.bootImage (m : Mod) (im backup : BootImage) : Mod :=
  if m.prompter ≠ 1 ∨ m.nextImage = 0 ∨ 3 < m.nextImage then m
  else if m.bootSrcOk && m.imageOk im then m.takeImage im false
  else if m.bootSrcOk && m.imageOk backup then m.takeImage backup true
  else m.bringupFails 1

/-- BOOT_IMAGE_LOAD (R410, R448). -/
def execBootImageLoad (im : BootImage) (backup : BootImage) (s : State) : Host.Outcome State Fault Refusal :=
  onMod s (fun m => m.bootImage im backup)

/-! Findings (Table 16-2). -/

/-- Whether a cell has a defect entry. -/
def Mod.knownBad (m : Mod) (f row pcol : Nat) : Bool := m.health.entries.any (fun d => decide (d = .cell f row pcol))

/-- A defect found at bring-up: an entry, and the bring-up is not clean. -/
def Mod.found (m : Mod) (d : Defect) : Mod := { m.addDefect d with clean := false }

/-- A field-row dark at bring-up (R358, R362). -/
def Mod.darkRow (m : Mod) (f row : Nat) : Mod := { (m.markDark f row).loseEdges with clean := false }

/-- A bad cell of a row in service (R358, R361): L moves to it, or the row is dark; the unused spare only loses SPARE_GOOD. -/
def Mod.badCell (m : Mod) (f row pcol : Nat) (full : Bool) : Mod :=
  let L := m.get (rowL f row)
  if m.isSet (rowDark f row) then m
  else if pcol = L then (if pcol = 24 then m.put (rowSpare f row) 0 else m)
  else if L = 24 && m.isSet (rowSpare f row) && !full then m.put (rowL f row) pcol
  else m.darkRow f row

/-- A cell that fails its test; a cell with an entry is not tested (R358). -/
def Mod.cellFails (m : Mod) (f row pcol : Nat) : Mod :=
  if !m.present f || m.knownBad f row pcol || m.isSet (rowDark f row) || decide (m.get (rowL f row) = pcol ∧ pcol ≠ 24) then m
  else
    let full := decide (1024 ≤ m.health.entries.length)
    let m := (m.found (.cell f row pcol)).badCell f row pcol full
    let what := if m.isSet (rowDark f row) then 4 else if pcol = 24 then 3 else 1
    m.deathRecord f row pcol what (m.get (rowL f row))

/-- The physical column east of one in service in a row. -/
def Mod.eastOf (m : Mod) (f row pcol : Nat) : Nat := if pcol + 1 = m.get (rowL f row) then pcol + 2 else pcol + 1

/-- A mesh link inside a field-row fails: both cells at its ends are bad. -/
def Mod.linkFails (m : Mod) (f row west : Nat) : Mod :=
  let e := m.eastOf f row west
  (m.cellFails f row west).cellFails f row e

/-- A field-row darkened by a seam, where it is not dark already. -/
def Mod.seamSide (m : Mod) (f row : Nat) : Mod :=
  if m.isSet (rowDark f row) then m else (m.darkRow f row).deathRecord f row 0 4 31

/-- The field-row across a seam from one: on the south side, the top row of the field below; else the same row of the field to the east. -/
def acrossSeam (f row : Nat) (south : Bool) : Nat × Nat := if south then (f + 9, 0) else (f + 1, row)

/-- A seam fails: the field-row on each side of it is dark. -/
def Mod.seamFails (m : Mod) (f row : Nat) (south : Bool) : Mod :=
  let o := acrossSeam f row south
  ((m.found (.lane (256 + f * 2 + ofBool south) row)).seamSide f row).seamSide o.1 o.2

/-- A field PLL that does not lock (R330, Table 16-2). -/
def Mod.pllDead (m : Mod) (f : Nat) : Mod :=
  if m.present f then
    { ((((m.fieldQuiet f).put (fcLock f) 0).put (fcFault f) 1).put (fsDomain f) 0).freshField f with clean := false }
  else m

/-- A lane that fails training (R243). -/
def Mod.laneFails (m : Mod) (p lane : Nat) : Mod :=
  if m.portFitted p && decide (lane < 17) && decide (m.get (portState p) ≠ 5) then
    let m := (m.found (.lane p lane)).laneOut p lane
    if m.fewLanes p then m.portDown p 5 else m
  else m

/-- What a step found that its kind of bring-up tests, acted on (R358): a quick start leaves out the patterns that only slow faults fail,
and the rows of its march but one in sixteen (R355). A field's voltages that do not agree with FIELD_OPP make the bring-up not clean (log
entry 42). -/
def Mod.findings (m : Mod) (fd : Findings) : Mod :=
  let cells := if m.quick then fd.cells else fd.cells ++ fd.cellsSlow
  let rows := if m.quick then fd.stratRows.filter (fun r => decide (r.2.2.2 % 16 = m.health.quicks % 16)) else fd.stratRows
  let m := m.each cells (fun m c => m.cellFails c.1 c.2.1 c.2.2)
  let m := m.each fd.links (fun m c => m.linkFails c.1 c.2.1 c.2.2)
  let m := m.each fd.seams (fun m c => m.seamFails c.1 c.2.1 c.2.2)
  let m := m.each rows (fun m r => m.found (.stratumRow r.1 r.2.1 r.2.2.1 r.2.2.2))
  let m := m.each fd.channels (fun m c => { m.channelLost c.1 c.2 with clean := false })
  let m := m.each fd.fieldPlls Mod.pllDead
  let m := if fd.volts.isEmpty then m else { m with clean := false }
  m.each fd.lanes (fun m c => m.laneFails c.1 c.2)

/-! Steps (Table 16-1). -/

/-- One defect entry applied to the grid as the record is read (R361). -/
def Mod.applyEntry (m : Mod) (d : Defect) : Mod :=
  match d with
  | .cell f row pcol => m.badCell f row pcol false
  | _ => m

/-- Cell entries discarded for a full bring-up with RETEST (R357). -/
def Mod.discardCells (m : Mod) : Mod :=
  let es := m.health.entries.filter (fun d => match d with | .cell _ _ _ => false | _ => true)
  ({ m with health := { m.health with entries := es, fullOnly := decide (1024 ≤ es.length) } }.put hsEntries es.length).put hsFullOnly
    (ofBool (decide (1024 ≤ es.length)))

/-- The fuse map and the health record read: the digest measured, the logical grid formed (R357, R359, R361 to R364). -/
def Mod.readFuses (m : Mod) : Mod :=
  let retest := m.health.retest && !m.quick
  let m := { m.measureFuses with clean := true }
  let m := if retest then m.discardCells else m
  let m := m.each m.health.entries Mod.applyEntry
  let m := (m.put buQuick (ofBool m.quick)).put buRetest (ofBool retest)
  { m with clean := true }.requestPower true allFields

/-- KEY drawn, and every field's stratum in training, to be zero-filled after it (R182, R194, Table 16-1). -/
def Mod.trainStrata (m : Mod) : Mod :=
  let d := m.draw
  (d.2.put stratKey d.1.toNat).each (allFields.filter m.present) (fun m f =>
    let m := m.stratTrain f
    { m with stratLost := sadd m.stratLost f })

/-- Optical ports that are enabled begin training. -/
def Mod.trainPorts (m : Mod) : Mod :=
  m.each (List.range 48) (fun m p =>
    if m.portFitted p && m.isSet (portEn p) && decide (m.get (portState p) = 1) then m.put (portState p) 2 else m)

/-- Ports whose far end is not up stay down; the stratum's zero-fill begins, and the fields in no company power down (R340). -/
def Mod.opticsEnd (m : Mod) : Mod :=
  let m := m.each (List.range 48) (fun m p => if m.portFitted p && decide (m.get (portState p) = 2) then m.put (portState p) 1 else m)
  (m.each allFields (fun m f => m.trainingDone f true)).requestPower false (m.onFields.filter (fun f => !m.wantsPower f))

/-- Seconds since the last clean full bring-up, all ones without one or without PTP time (Table 16-6). -/
def Mod.fullAge (m : Mod) : Nat :=
  match m.health.fullAt with
  | some t => if m.timeValid then Nat.min 0xFFFFFFFF ((m.time - t) / 1000000000) else 0xFFFFFFFF
  | none => 0xFFFFFFFF

/-- The PTP time, where there is one. -/
def Mod.stamp (m : Mod) : Option Nat := if m.timeValid then some m.time else none

/-- The record of a bring-up's end (R356, R357): a full one's time and result; a clean one's time renews the age. -/
def Mod.healthEnd (m : Mod) : Mod :=
  let h := m.health
  let h := { h with forceFull := false }
  let h :=
    if m.quick then { h with quicks := h.quicks + 1 }
    else { h with
      lastAt := m.stamp, lastClean := m.clean, fullAt := if m.clean then m.stamp else h.fullAt
      quicks := 0, uncorr := false, added := false, retest := false }
  { m with health := h }

/-- HEALTH_STAT and BRINGUP_STAT at a bring-up's end (Tables 16-4 and 16-6). -/
def Mod.bringupStats (m : Mod) : Mod :=
  let m := ((m.put hsAge m.fullAge).put hsQuicks m.health.quicks).put hsUncorr (ofBool m.health.uncorr)
  let dark := (allFields.map (fun f => ((List.range 16).filter (fun r => m.isSet (rowDark f r))).length)).foldl (· + ·) 0
  let rows := ((List.range 128).filter (fun y => (List.range 9).any (fun x => m.rowOut (y / 16 * 9 + x) (y % 16)))).length
  ((m.put buElapsed (m.now / 1000000000)).put buDark (Nat.min 255 dark)).put buShadowed rows

/-- The last step's end: the stratum reads as zero, a full bring-up has tested every cell and clears the marks (R379). -/
def Mod.bringupDone (m : Mod) : Mod :=
  let m := m.each allFields Mod.fillDone
  let m := if m.quick then m else m.each (List.range 256) (fun m i => if bit (m.reg (rhOff i)) 63 then m.unmark i else m)
  (m.healthEnd.bringupStats).put dsDone 1

/-- BRINGUP_STEP_COMPLETE: what the step found, its effect, and the next step begun. -/
def Mod.stepEnds (m : Mod) (fd : Findings) : Mod :=
  match m.get buStep with
  | 1 => if m.prompter = 1 ∧ m.nextImage = 4 then ({ m.put dsValid 1 with prompter := 2 }.put buStep 2).setMeas 5 (sha384 m.cfgRecord) else m
  | 2 => (m.readFuses.findings fd).put buStep 3
  | 3 => if m.power.isEmpty && m.wave.isNone then (m.findings fd).put buStep 4 else m
  | 4 => ((m.findings fd).trainStrata).put buStep 5
  | 5 => (m.findings fd).put buStep 6
  | 6 => ((m.findings fd).trainPorts).put buStep 7
  | 7 => ((m.findings fd).opticsEnd).put buStep 8
  | 8 => if m.power.isEmpty && m.wave.isNone then ((m.findings fd).bringupDone).put buStep 9 else m
  | _ => m

/-- BRINGUP_STEP_COMPLETE (R354); a module in ghost light goes no further than Prompter's boot (R405). -/
def execBringupStepComplete (fd : Findings) (s : State) : Host.Outcome State Fault Refusal :=
  onMod s (fun m => if m.ghost && decide (m.get buStep ≠ 1) then m else m.stepEnds fd)

/-- BRINGUP_STEP_TIMEOUT (R354): the clock check's own limit is the standby logic's. -/
def execBringupStepTimeout (s : State) : Host.Outcome State Fault Refusal :=
  onMod s (fun m =>
    let k := m.get buStep
    if !m.ghost && decide (1 ≤ k ∧ k ≤ 8) then m.bringupFails k else m)

/-- The conditions of a quick start (R356). -/
def Mod.quickOk (m : Mod) : Bool :=
  let h := m.health
  m.isSet quickEn && !h.forceFull && !h.uncorr && !h.added && !h.fullOnly && m.timeValid &&
    match h.fullAt with
    | some t => h.lastClean && decide (m.time < t + 604800000000000)
    | none => false

/-- PTP_WAIT_END (R356): PTP time in ns, or none within 2 s. -/
def execPtpWaitEnd (ptp : Option Nat) (s : State) : Host.Outcome State Fault Refusal :=
  onMod s (fun m =>
    if m.get buStep = 2 ∧ m.prompter = 2 then
      let m := { m with ptp := ptp.map (fun p => p - m.now) }
      { m with quick := m.quickOk }
    else m)

/-! The watchdog (R398, Table 18-3). -/

/-- The rebooted firmware running: its fuse digest measured again; what waited for Prompter goes on. -/
def Mod.firmwareBack (m : Mod) : Mod :=
  let m := ({ m.put rtBooting 0 with prompter := 2 }.put dsValid 1).measureFuses
  m.setMeas 5 (sha384 m.cfgRecord)

/-- WDOG_KICK (R398): the first kick after a Prompter reset ends its reboot. -/
def execWdogKick (s : State) : Host.Outcome State Fault Refusal :=
  onMod s (fun m => if m.prompter = 1 ∧ m.nextImage = 4 ∧ m.isSet rtBooting then m.firmwareBack else m)

/-- Ghost light by the watchdog: Prompter is left in its ROM service loop. -/
def Mod.watchdogGhost (m : Mod) : Mod :=
  let m := m.ghostIn 4
  { (m.put rtRomLoop 1).put rtBooting 0 with prompter := 3, spdm := [] }

/-- A reset of Prompter (R398, R411, R417). -/
def Mod.promReset (m : Mod) : Mod :=
  let m := (m.romBoot.put rtBooting 1).addSat rtPromResets 1
  m.resetRecord 7 0 (m.get rtDgen) (m.get rtDgen) none 0 0

/-- WATCHDOG_EXPIRY (R398). -/
def execWatchdogExpiry (w : WdogEvent) (s : State) : Host.Outcome State Fault Refusal :=
  let m := s.m
  match w with
  | .missed =>
    if m.prompter = 2 then
      if s.sb.wdogAt ≠ 0 ∧ m.now < s.sb.wdogAt + 60000000000 then
        .next { s with sb := { s.sb with wdogAt := m.now + 1 }, m := (m.promReset).watchdogGhost }
      else .next { s with sb := { s.sb with wdogAt := m.now + 1 }, m := m.promReset }
    else .next s
  | .rebootMissed => if m.prompter = 1 ∧ m.isSet rtBooting then .next { s with m := m.watchdogGhost } else .next s

end Sys2Proof.Machine
end

