-- ==== Sys2Proof/Machine/Attest.lean ====
section
/-! DEFINITION. Attestation (R413 to R417): the configuration record's register, and the SPDM responder. The layouts and codes of
the messages are DSP0274 1.2's (log entry 20). -/

namespace Sys2Proof.Machine

/-- CONFIG_RECORD_RECOMPUTE (R413). -/
def execConfigRecordRecompute (s : State) : Host.Outcome State Fault Refusal :=
  onMod s (fun m => if m.prompterUp then m.setMeas 5 (sha384 m.cfgRecord) else m)

/-! The responder. -/

def epKey (ep : SpdmEndpoint) : Nat := match ep with | .doe hp => hp | .mctp => 4

def Mod.spdmOf (m : Mod) (ep : SpdmEndpoint) : Spdm := mget .zero m.spdm (epKey ep)

def Mod.setSpdm (m : Mod) (ep : SpdmEndpoint) (x : Spdm) : Mod := { m with spdm := mset .zero m.spdm (epKey ep) x }

/-- Whether the responder answers on an endpoint (R405, R416, R417). -/
def Mod.answers (m : Mod) (ep : SpdmEndpoint) : Bool :=
  m.prompterUp && decide (3 ≤ m.get buStep) &&
    match ep with
    | .doe hp => m.portLink hp && (!m.ghost || decide (hp.val = 0))
    | .mctp => true

/-- A message's header: version, code, Param1, Param2. -/
def spdmHead (v code p1 p2 : Nat) : List Byte := toLe v 1 ++ toLe code 1 ++ toLe p1 1 ++ toLe p2 1

/-- The part of a request that the transcript holds. -/
def reqBytes (code : Nat) (q : SpdmReq) (nonce : Bool) : List Byte :=
  spdmHead q.version.toNat code q.param1.toNat q.param2.toNat ++ (if nonce then q.nonce else [])

/-- An ERROR response. -/
def Mod.spdmError (m : Mod) (ep : SpdmEndpoint) (code : Nat) : Mod := m.emit (.spdm ep (spdmHead 0x12 0x7F code 0))

/-- A response sent: the connection's stage, and the transcript with the request and the response. -/
def Mod.spdmSend (m : Mod) (ep : SpdmEndpoint) (stage : Nat) (rq rs : List Byte) : Mod :=
  (m.setSpdm ep ⟨stage, (m.spdmOf ep).transcript ++ rq ++ rs⟩).emit (.spdm ep rs)

/-- A request other than GET_VERSION: what is wrong with it, 0 for nothing (R415, R417). -/
def Mod.spdmFault (m : Mod) (ep : SpdmEndpoint) (q : SpdmReq) (stage : Nat) : Nat :=
  let st := (m.spdmOf ep).stage
  if st = 0 then 0x43
  else if q.version ≠ 0x12 then 0x41
  else if st < stage ∨ (stage < 3 ∧ st ≠ stage) then 0x04
  else 0

/-- A request other than GET_VERSION that an endpoint takes at a stage. -/
def Mod.spdmTake (m : Mod) (ep : SpdmEndpoint) (q : SpdmReq) (stage : Nat) (good : Bool) (g : Mod → Mod) : Mod :=
  if !m.answers ep then m
  else
    let e := m.spdmFault ep q stage
    if e ≠ 0 then m.spdmError ep e else if good then g m else m.spdmError ep 0x01

/-- `n` bytes from the module's random source, or that the manual leaves open. -/
def Mod.drawBytes (m : Mod) : Nat → List Byte × Mod
  | 0 => ([], m)
  | n + 1 => let d := m.draw; let r := d.2.drawBytes n; (toLe d.1.toNat 8 ++ r.1, r.2)

/-- GET_VERSION (R415 to R417): version 1.2, and the connection begins anew. -/
def Mod.spdmVersion (m : Mod) (ep : SpdmEndpoint) (q : SpdmReq) : Mod :=
  if !m.answers ep then m
  else if q.version ≠ 0x10 then m.spdmError ep 0x41
  else (m.setSpdm ep .zero).spdmSend ep 1 (reqBytes 0x84 q false) (spdmHead 0x10 0x04 0 0 ++ ([0, 1, 0, 0x12] : List Byte))

/-- GET_VERSION (R415, R417). -/
def execGetVersion (ep : SpdmEndpoint) (q : SpdmReq) (s : State) : Host.Outcome State Fault Refusal :=
  onMod s (fun m => m.spdmVersion ep q)

/-- GET_CAPABILITIES (R415, Table 19-3): CTExponent 20; the transfer sizes are not given. -/
def execGetCapabilities (ep : SpdmEndpoint) (q : SpdmReq) (s : State) : Host.Outcome State Fault Refusal :=
  onMod s (fun m => m.spdmTake ep q 1 true (fun m =>
    let d := m.drawBytes 1
    d.2.spdmSend ep 2 (reqBytes 0xE1 q false) (spdmHead 0x12 0x61 0 0 ++ ([0, 20, 0, 0] : List Byte) ++ toLe 0x16 4 ++ d.1)))

/-- NEGOTIATE_ALGORITHMS (R415, Table 19-3). -/
def execNegotiateAlgorithms (ep : SpdmEndpoint) (q : SpdmReq) (s : State) : Host.Outcome State Fault Refusal :=
  onMod s (fun m => m.spdmTake ep q 2 q.algOk (fun m =>
    m.spdmSend ep 3 (reqBytes 0xE3 q false)
      (spdmHead 0x12 0x63 0 0 ++ toLe 36 2 ++ ([1, 0] : List Byte) ++ toLe 4 4 ++ toLe 0x80 4 ++ toLe 2 4 ++ toLe 0 16)))

/-- GET_DIGESTS (R414, R415): slot 0 only. -/
def execGetDigests (ep : SpdmEndpoint) (q : SpdmReq) (s : State) : Host.Outcome State Fault Refusal :=
  onMod s (fun m => m.spdmTake ep q 3 true (fun m =>
    m.spdmSend ep 3 (reqBytes 0x81 q false) (spdmHead 0x12 0x01 0 1 ++ sha384 Config.certChain)))

/-- GET_CERTIFICATE (R414, R415): the whole chain of slot 0. -/
def execGetCertificate (ep : SpdmEndpoint) (q : SpdmReq) (s : State) : Host.Outcome State Fault Refusal :=
  onMod s (fun m => m.spdmTake ep q 3 (decide (q.param1 = 0)) (fun m =>
    m.spdmSend ep 3 (reqBytes 0x82 q false)
      (spdmHead 0x12 0x02 0 0 ++ toLe Config.certChain.length 2 ++ toLe 0 2 ++ Config.certChain)))

/-! Measurements (R416, Worked example 19-1). -/

/-- The value of an index: 48 bytes, 4 for the SVN (Table 19-1). -/
def Mod.measValue (m : Mod) (k : Nat) : List Byte := if k = 6 then (m.measBytes 6).take 4 else m.measBytes k

/-- The measurement block of an index. -/
def Mod.measBlock (m : Mod) (k : Nat) : List Byte :=
  let v := m.measValue k
  toLe (k + 1) 1 ++ toLe 1 1 ++ toLe (v.length + 3) 2 ++ toLe (measType k) 1 ++ toLe v.length 2 ++ v

/-- The blocks that Param2 asks for. -/
def Mod.measRecord (m : Mod) (p2 : Nat) : Nat × List Byte :=
  if p2 = 0 then (0, [])
  else if p2 = 0xFF then (7, (List.range 7).flatMap m.measBlock)
  else (1, m.measBlock (p2 - 1))

/-- A signed message: the signature covers the transcript up to it. -/
def Mod.spdmSigned (m : Mod) (ep : SpdmEndpoint) (rq rs : List Byte) : Mod :=
  m.spdmSend ep 3 rq (rs ++ slice (Config.sign ((m.spdmOf ep).transcript ++ rq ++ rs)) 0 96)

/-- GET_MEASUREMENTS: signed where bit 0 of Param1 asks for it. -/
def Mod.measurements (m : Mod) (ep : SpdmEndpoint) (q : SpdmReq) : Mod :=
  let p2 := q.param2.toNat
  let rec_ := m.measRecord p2
  let d := m.drawBytes 4
  let rs := spdmHead 0x12 0x60 (if p2 = 0 then 7 else 0) 0 ++ toLe rec_.1 1 ++ toLe rec_.2.length 3 ++ rec_.2 ++ d.1 ++ toLe 0 2
  let signed := bit q.param1 0
  let rq := reqBytes 0xE0 q signed
  if signed then d.2.spdmSigned ep rq rs else d.2.spdmSend ep 3 rq rs

/-- GET_MEASUREMENTS (R416). -/
def execGetMeasurements (ep : SpdmEndpoint) (q : SpdmReq) (s : State) : Host.Outcome State Fault Refusal :=
  onMod s (fun m => m.spdmTake ep q 3 (decide (q.param2.toNat ≤ 7 ∨ q.param2 = 0xFF)) (fun m => m.measurements ep q))

/-- The measurement summary hash that Param2 of CHALLENGE asks for. -/
def Mod.measSummary (m : Mod) (p2 : Nat) : List Byte := if p2 = 0 then [] else sha384 ((List.range 7).flatMap m.measBlock)

/-- CHALLENGE's answer. -/
def Mod.challenge (m : Mod) (ep : SpdmEndpoint) (q : SpdmReq) : Mod :=
  let d := m.drawBytes 4
  d.2.spdmSigned ep (reqBytes 0x83 q true)
    (spdmHead 0x12 0x03 0 1 ++ sha384 Config.certChain ++ d.1 ++ m.measSummary q.param2.toNat ++ toLe 0 2)

/-- CHALLENGE (R415). -/
def execChallenge (ep : SpdmEndpoint) (q : SpdmReq) (s : State) : Host.Outcome State Fault Refusal :=
  onMod s (fun m => m.spdmTake ep q 3 (decide (q.param1 = 0 ∧ (q.param2 = 0 ∨ q.param2 = 1 ∨ q.param2 = 0xFF))) (fun m => m.challenge ep q))

end Sys2Proof.Machine
end

