-- ==== Sys2Proof/Machine/Counters.lean ====
section
/-! DEFINITION. Counters, snapshots, watermark notices, trace buffers and telemetry (20). -/

namespace Sys2Proof.Machine

/-! Sources (Table 20-1). -/

/-- The fields of a selection as CNT_SEL and WM_SEL have them. -/
def selKind (v : Word) : Nat := bits v 61 58
def selCode (v : Word) : Nat := bits v 57 50
def selField (v : Word) : Nat := bits v 48 42
def selLcell (v : Word) : Nat := bits v 41 33
def selSub (v : Word) : Nat := bits v 32 29
def selPort (v : Word) : Nat := bits v 28 23

/-- Event codes of a KIND: 1 to this. -/
def eventCodes (kind : Nat) : Nat := ([0, 7, 3, 5, 4, 8, 3, 5, 8, 4, 5, 5][kind]?).getD 0

/-- Stall causes of a KIND: 0 up to but not including this. -/
def stallCauses (kind : Nat) : Nat := ([0, 3, 0, 0, 4, 0, 0, 3, 3, 3][kind]?).getD 0

/-- Whether a selection names a counter that exists (R421); the reset value of these fields in a slot that is not in use names none
(DESIGN CHOICE, log entry 21). -/
def selOk (v : Word) : Bool :=
  if bit v 63 = false ∧ bits v 62 50 = 0 then true
  else if bit v 62 then decide (selCode v < stallCauses (selKind v)) else decide (1 ≤ selCode v ∧ selCode v ≤ eventCodes (selKind v))

/-- The key of the event counter that a selection names. -/
def selKey (v : Word) : Nat :=
  let k := selKind v
  if k = 1 then ctrKey 1 (selCode v) (selField v) (selLcell v) (selSub v)
  else if k ≤ 5 then ctrKey k (selCode v) (selField v) (selLcell v) 0
  else if k = 6 then ctrKey 6 (selCode v) (selField v) 0 0
  else if k = 7 then ctrKey 7 (selCode v) (selField v) 0 (selSub v)
  else if k ≤ 10 then ctrKey k (selCode v) (selPort v) 0 0
  else ctrKey k (selCode v) 0 0 0

/-- Event counters whose events are cycles or codewords of the implementation, which the model does not count (log entry 21). -/
def untracked (v : Word) : Bool :=
  decide ((selKind v = 2 ∧ selCode v = 3) ∨ (selKind v = 6 ∧ selCode v ≤ 2) ∨ (selKind v = 8 ∧ selCode v = 3))

/-- Whether a selection's unit lies in a domain that is off, or is no unit of the part (R424). -/
def Mod.selAbsent (m : Mod) (v : Word) : Bool :=
  let k := selKind v
  if 1 ≤ k ∧ k ≤ 6 then
    !(m.present (selField v) && m.fieldOn (selField v)) || decide (k ≤ 5 ∧ 384 ≤ selLcell v) || decide (k = 1 ∧ 6 ≤ selSub v)
  else if k = 7 then !m.present (selField v) || decide (m.stratState (selField v) = ssOff)
  else if k = 8 ∨ k = 9 then !m.portFitted (selPort v) || m.ghost
  else if k = 10 then decide (4 ≤ selPort v) || (m.ghost && decide (selPort v ≠ 0))
  else decide (k ≠ 11)

/-- How often the power domain of a selection's counter has come up, and the key it is remembered under for a group: 127 for edges,
above it the strata. -/
def Mod.selUps (m : Mod) (v : Word) : Nat × Nat :=
  let k := selKind v
  if 1 ≤ k ∧ k ≤ 6 then (selField v, (m.field (selField v)).ups)
  else if k = 7 then (128 + selField v, (m.field (selField v)).stratUps)
  else if k = 8 ∨ k = 9 ∨ (k = 10 ∧ selPort v ≠ 0) then (127, m.edgeUps)
  else (126, 0)

/-! Selections and snapshots (R421 to R425). -/

/-- A group's selection in force for a slot. -/
def Mod.selActive (m : Mod) (g i : Nat) : Word := mget 0 m.sels (g * 16 + i)

/-- Whether a selection names a stall counter that another slot names, active or staged (R421). -/
def Mod.stallTaken (m : Mod) (g s : Nat) (v : Word) : Bool :=
  bit v 62 && (List.range 256).any (fun k =>
    decide (k ≠ g * 16 + s) && [mget 0 m.sels k, m.reg (cselOff (k / 16) (k % 16))].any (fun w =>
      bit w 63 && decide (bits w 62 50 = bits v 62 50 ∧ bits w 48 23 = bits v 48 23)))

/-- CNT_SEL's write. -/
def Mod.cntSel (m : Mod) (g s : Nat) (v : Word) : Mod :=
  if !selOk v || (bit v 63 && m.stallTaken g s v) then m.put (snLost g) 1
  else (m.plainWrite (cselOff g s) v).put (snPending g) 1

/-- CNT_SEL_WRITE (R9, R420, R421). -/
def execCntSelWrite (g : Fin 16) (s : Fin 16) (v : Word) (st : State) : Host.Outcome State Fault Refusal :=
  onDev st (fun m => m.cntSel g s v)

/-- What a slot latches (R419, R424): a stall counter is cycles of the implementation, a free value with OVF only at its end. -/
def Mod.latch (m : Mod) (v : Word) : Mod × Word :=
  if !bit v 63 || m.selAbsent v then (m, 0)
  else if bit v 62 then
    let d := m.draw
    (d.2, if bit d.1 63 then 0x8000FFFFFFFFFFFF else BitVec.ofNat 64 (bits d.1 47 0))
  else if untracked v then let d := m.draw; (d.2, d.1)
  else (m, mget 0 m.ctr (selKey v))

def Mod.latchAll (m : Mod) (l : List Word) : Mod × List Word :=
  l.foldl (fun a v => let r := a.1.latch v; (r.1, a.2 ++ [r.2])) (m, [])

/-- The bits of the slots that a condition on their selections names. -/
def slotBits (l : List Word) (p : Word → Bool) : Nat :=
  ((List.range 16).map (fun i => if p ((l[i]?).getD 0) then 2 ^ i else 0)).foldl (· + ·) 0

/-- A group's strobe (R422 to R424): the old selections are latched, staged ones come into force. -/
def Mod.strobe (m : Mod) (g : Nat) : Mod :=
  let old := (List.range 16).map (m.selActive g)
  let r := m.latchAll old
  let seen := fun (v : Word) => let u := m.selUps v; decide (mget 0 m.upsSeen (g * 256 + u.1) ≠ u.2)
  let s : Snap := ⟨r.2, slotBits old (fun v => bit v 63 && m.selAbsent v), slotBits old (fun v => bit v 63 && seen v), m.isSet (snPending g), m.time⟩
  let m := { r.1 with snaps := mset none r.1.snaps g (some s) }
  let m := m.each (List.range 16) (fun m i => { m with sels := mset 0 m.sels (g * 16 + i) (m.reg (cselOff g i)) })
  let ups := allFields.foldl (fun u f =>
    mset 0 (mset 0 u (g * 256 + f) (m.field f).ups) (g * 256 + 128 + f) (m.field f).stratUps) m.upsSeen
  let m := { m with upsSeen := mset 0 ups (g * 256 + 127) m.edgeUps }
  (m.put (snPending g) 0).put (snBusy g) 1

/-- SNAP_CTRL's write. -/
def Mod.snapCtrl (m : Mod) (g : Nat) (v : Word) : Mod :=
  let m := m.plainWrite (cntBase + 16 * g) v
  if bit v 31 then (if m.isSet (snBusy g) then m.put (snLost g) 1 else m.strobe g) else m

/-- SNAPSHOT_GO (R420, R422). -/
def execSnapshotGo (g : Fin 16) (v : Word32) (s : State) : Host.Outcome State Fault Refusal :=
  onDev s (fun m => m.snapCtrl g (v.setWidth 64))

/-- Every RSN register of the group switched to the snapshot, BUSY clear. -/
def Mod.snapDone (m : Mod) (g : Nat) : Mod :=
  match mget none m.snaps g with
  | none => m
  | some x =>
    let o := hdrOff g
    let q := bits (m.reg (o + 8)) 63 48 + 1
    let m := { m with snaps := mset none m.snaps g none }.setReg o (BitVec.ofNat 64 x.time)
    let m := m.setReg (o + 8) (BitVec.ofNat 64 (q % 65536 * 2 ^ 48 + ofBool x.applied * 2 ^ 47 + x.restart * 2 ^ 16 + x.absent))
    let m := m.each (List.range 16) (fun m i => m.setReg (o + 0x10 + 8 * i) ((x.vals[i]?).getD 0))
    m.put (snBusy g) 0

/-- SNAPSHOT_COMPLETE (R422). -/
def execSnapshotComplete (g : Fin 16) (s : State) : Host.Outcome State Fault Refusal :=
  onMod s (fun m => if m.prompterUp then m.snapDone g else m)

/-! Watermark notices (R426 to R428). -/

/-- Whether Table 20-2 has a level. -/
def levelOk (kind code : Nat) : Bool :=
  (shas [1, 7, 9] kind && decide (code = 1)) || (shas [4, 8, 11] kind && decide (code = 1 ∨ code = 2))

/-- The chunks a chorus engine holds. -/
def Mod.chunksHeld (m : Mod) (p : Nat) : Nat :=
  (m.rounds.map (fun e =>
    match e.2 with
    | some r => if bits (m.reg (groupOff e.1)) 53 48 = p then r.held.length else 0
    | none => 0)).foldl (· + ·) 0

/-- The level a selection watches (Table 20-2). -/
def Mod.level (m : Mod) (v : Word) : Nat :=
  let c := m.cell (selField v) (selLcell v)
  match selKind v, selCode v with
  | 1, 1 => (c.mat (selSub v)).queue.length
  | 4, 1 => c.fly.transfers.length
  | 4, 2 => c.fly.reqs.length
  | 7, 1 => (m.chan (selField v) (selSub v)).queue.length
  | 8, 1 => ((m.oport (selPort v)).egress.filter (fun fr => decide (fTc fr = 1))).length
  | 8, 2 => (m.oport (selPort v)).unacked.length
  | 9, 1 => m.chunksHeld (selPort v)
  | 11, 1 => m.get tagsBusy
  | 11, 2 => m.get drainTally
  | _, _ => 0

/-- The TIME and STAT registers of a notice. -/
def noticeRegs (n : NoticeRef) : Nat × Nat :=
  match n with
  | .wm k => (wmOff k + 0x10, wmOff k + 0x18)
  | .hot f ch => (hotOff f ch, hotOff f ch + 8)

/-- A notice's number in a datagram (Table 20-4). -/
def noticeNo (n : NoticeRef) : Nat := match n with | .wm k => k | .hot f ch => 0x400 + f.val * 16 + ch

/-- A notice's level and mark; none where it is not in use. -/
def Mod.noticeLevel (m : Mod) (n : NoticeRef) : Option (Nat × Nat) :=
  match n with
  | .wm k =>
    let v := m.reg (wmOff k)
    if bit v 63 then some (m.level v, bits v 19 0) else none
  | .hot f ch => some ((m.chan f ch).queue.length, m.get stHotMark)

/-- The summary bits of the notices (R427, R428). -/
def Mod.noticeSum (m : Mod) (n : NoticeRef) : Mod :=
  match n with
  | .wm k => m.put ⟨wmSum.off, k, k⟩ (bits (m.reg (wmOff k + 0x18)) 63 63)
  | .hot f _ => m.put (hotSum f) (ofBool ((List.range 16).any (fun ch => bit (m.reg (hotOff f ch + 8)) 63)))

/-- A notice latched at a level. -/
def Mod.noticeSeen (m : Mod) (n : NoticeRef) (level mark : Nat) : Mod :=
  let r := noticeRegs n
  let st := 2 ^ 63 + ofBool m.timeValid * 2 ^ 62 + mark % 2 ^ 20 * 2 ^ 32 + Nat.min level 0xFFFFF
  ((m.setReg r.1 (BitVec.ofNat 64 m.time)).setReg r.2 (BitVec.ofNat 64 st)).noticeSum n

/-- A datagram counted, and sent where it can be. -/
def Mod.telSend (m : Mod) (up : Bool) (bs : List Byte) : Mod :=
  if up then
    (m.addWrap telSent 1).emit (.datagram ((m.reg (errBase + 0x10)).toNat + (m.reg (errBase + 0x18)).toNat * 2 ^ 64) (m.get telPort) bs)
  else m.addSat telNotSent 1

/-- A notice datagram (R431); whether the management port is up at that moment the command does not say: a free value (log entry
2). -/
def Mod.noticeSend (m : Mod) (n : NoticeRef) : Mod :=
  if m.isSet telEn && m.isSet telNotices && m.pfAll then
    let r := noticeRegs n
    let d := m.draw
    d.2.telSend (bit d.1 0) (([2, 0] : List Byte) ++ toLe (noticeNo n) 2 ++ toLe (m.get devNum) 2 ++ toLe 0 10 ++
      toLe (m.reg r.1).toNat 8 ++ toLe (m.reg r.2).toNat 8)
  else m

/-- A notice evaluated (R426). -/
def Mod.noticeStep (m : Mod) (n : NoticeRef) : Mod :=
  match m.noticeLevel n with
  | none => m
  | some (level, mark) =>
    let r := noticeRegs n
    let st := m.reg r.2
    if bit st 63 then m.setReg r.2 (setBits st 19 0 (Nat.max (bits st 19 0) (Nat.min level 0xFFFFF)))
    else if mark ≤ level then (m.noticeSeen n level mark).noticeSend n
    else m

/-- WATERMARK_CROSSING (R426, R428). -/
def execWatermarkCrossing (n : NoticeRef) (s : State) : Host.Outcome State Fault Refusal := onMod s (fun m => m.noticeStep n)

/-- SEEN written 1: the notice forgets, and latches again where the level stands at or above the mark (R426). -/
def Mod.noticeClear (m : Mod) (n : NoticeRef) (v : Word) : Mod :=
  if bit v 63 then
    let r := noticeRegs n
    let m := ((m.setReg r.1 0).setReg r.2 0).noticeSum n
    match m.noticeLevel n with
    | none => m
    | some (level, mark) => if mark ≤ level then m.noticeSeen n level mark else m
  else m

/-- WATERMARK_CLEAR (R420, R426). -/
def execWatermarkClear (n : NoticeRef) (v : Word) (s : State) : Host.Outcome State Fault Refusal := onDev s (fun m => m.noticeClear n v)

/-- WM_SEL's write. -/
def Mod.wmSel (m : Mod) (n : Nat) (v : Word) : Mod :=
  if bit (m.reg (wmOff n + 0x18)) 63 || decide (bits v 19 0 = 0) || !levelOk (selKind v) (selCode v) then m.put wmLost 1
  else m.plainWrite (wmOff n) v

/-- WM_SEL_WRITE (R9, R420, R427). -/
def execWmSelWrite (n : Fin 64) (v : Word) (s : State) : Host.Outcome State Fault Refusal := onDev s (fun m => m.wmSel n v)

/-! Telemetry (R431). -/

/-- A group's telemetry: a snapshot that waits is completed first, then the group's own, and its datagram. -/
def Mod.telGroup (m : Mod) (up : Bool) (g : Nat) : Mod :=
  let m := if m.isSet (snBusy g) then m.snapDone g else m
  let m := (m.strobe g).snapDone g
  m.telSend up (([1, 0] : List Byte) ++ toLe g 2 ++ toLe (m.get devNum) 2 ++ toLe 0 10 ++
    (List.range 18).flatMap (fun i => toLe (m.reg (hdrOff g + 8 * i)).toNat 8))

/-- TELEMETRY_PERIOD (R431): `up`: whether the management port is up. -/
def execTelemetryPeriod (up : Bool) (s : State) : Host.Outcome State Fault Refusal :=
  onMod s (fun m =>
    if m.pfAll && m.isSet telEn then
      m.each ((List.range 16).filter (fun g => decide (m.get telGroups / 2 ^ g % 2 = 1))) (fun m g => m.telGroup up g)
    else m)

/-! Trace buffers (R429, R430). -/

/-- TRACE_CTRL_WRITE (R17, R420, R430). -/
def execTraceCtrlWrite (f : Fin 72) (v : Word) (s : State) : Host.Outcome State Fault Refusal :=
  onField s f (fun m => m.fieldCtrl (fieldBase f + 0x490) v (m.traceWrite f v))

/-- What a cell record says of the scalar core (Table 20-3): 5 where it waits for a fabric access, 7 where it is stopped. -/
def scalarState (x : Scalar) : Nat :=
  match x.run with
  | .running => 0
  | .stopped => 7
  | .waiting =>
    if x.asleep = 0x30 ∨ x.asleep = 0x33 then 1
    else if x.asleep = 0x38 ∨ x.asleep = 0x39 then 2
    else if x.asleep = 0x3B then 3
    else if x.asleep = 0x3C ∨ x.asleep = 0x3D then 4
    else if x.asleep = 0x110 ∨ x.asleep = 0x120 then 6
    else if x.outst.isEmpty then 0
    else 5

/-- A cell record (Table 20-3). -/
def cellRecord (c : Cell) : Nat :=
  let q := ((List.range 6).map (fun u => (c.mat u).queue.length % 16 * 2 ^ (4 * u))).foldl (· + ·) 0
  q + c.fly.transfers.length % 32 * 2 ^ 24 + c.fly.reqs.length % 128 * 2 ^ 29 + ofBool c.vec.running * 2 ^ 36 + scalarState c.sc * 2 ^ 37

/-- A stratum record; the transfers of the period are a free value (log entry 2). -/
def Mod.chanRecord (m : Mod) (f ch n : Nat) : Nat :=
  (m.chan f ch).queue.length % 256 + n % 2 ^ 13 * 2 ^ 8 + m.get (sfHot f ch) * 2 ^ 21

/-- The edge blocks of a field, optical ports first (Tables 01-4 and 01-5): port id, LOAD. -/
def Mod.edgesOf (m : Mod) (f : Nat) : List (Nat × Nat) :=
  let on := fun (rs : List (Nat × Nat)) => match rs.head? with | some r => decide (routerField r.1 r.2 = f) | none => false
  (((List.range 48).filter (fun p => on (optRouters p))).map (fun p => (p, m.get (portLoad p)))) ++
    (((List.range 4).filter (fun h => on (hostRouters h))).map (fun h => (0x30 + h, 0)))

/-- One value drawn for each of a list. -/
def Mod.draws (m : Mod) (n : Nat) : Mod × List Nat :=
  (List.range n).foldl (fun (a : Mod × List Nat) _ => let d := a.1.draw; (d.2, a.2 ++ [d.1.toNat])) (m, [])

/-- The records of a frame's sections, in order, zero records for rows out of service. -/
def Mod.traceSections (m : Mod) (f : Nat) : Mod × List Nat :=
  let sec := m.get (tcSections f)
  let ls := List.range 384
  let cells := fun (g : Cell → Nat) => ls.map (fun l => if m.rowOut f (l / 24) then 0 else g (m.cell f l))
  let rig := if sec % 2 = 1 && m.isSet (rsEn f) then cells (fun c => c.rig.record.toNat) else []
  let cel := if sec / 2 % 2 = 1 then cells cellRecord else []
  let d := m.draws (if sec / 4 % 2 = 1 then 16 else 0)
  let str := (List.range d.2.length).map (fun ch => m.chanRecord f ch ((d.2[ch]?).getD 0))
  let es := m.edgesOf f
  let e := d.1.draws (if sec / 8 % 2 = 1 then es.length else 0)
  let edge := (List.range e.2.length).map (fun i =>
    let p := (es[i]?).getD (0, 0)
    p.1 + 2 ^ 6 + (e.2[i]?).getD 0 % 256 * 2 ^ 7 + p.2 % 8 * 2 ^ 15)
  (e.1, rig ++ cel ++ str ++ edge ++ (if sec / 8 % 2 = 1 then List.replicate (8 - e.2.length) 0 else []))

/-- A frame's lines (R429, Table 20-3). -/
def Mod.traceLines (m : Mod) (f : Nat) : Mod × List Byte :=
  let x := m.field f
  let r := m.traceSections f
  let w2 := f + m.get (fcFreq f) % 128 * 2 ^ 8 + m.get (fsHolds f) * 2 ^ 16 + m.get (tcSections f) * 2 ^ 22 + x.dropped % 65536 * 2 ^ 32
  (r.1, toLe x.frames 8 ++ toLe m.time 8 ++ toLe w2 8 ++ toLe 0 40 ++ r.2.flatMap (fun v => toLe v 8))

/-- One line written to the trace area through the management window (R184, R430). -/
def Mod.traceLine (m : Mod) (f : Nat) (bs : List Byte) : Mod :=
  if m.isSet (tsFull f) then m
  else
    let x := m.field f
    let area := m.get (tcSize f) * 32768
    let b := f * 2 ^ 29 + m.get (tcOff f) * 32768 + x.lines % area
    let m := { m with
      strat := writeBytes m.strat (b * 64) bs, stratBad := sdel m.stratBad b, stratLatent := sdel m.stratLatent b }.knowBurst b
    let m := (m.setField f { x with lines := x.lines + 1 }).put (tsLines f) (x.lines + 1)
    if m.isSet (tcStop f) && decide ((x.lines + 1) % area = 0) then (m.put (tsFull f) 1).put (tsActive f) 0 else m

/-- A frame dropped. -/
def Mod.traceDrop (m : Mod) (f : Nat) : Mod :=
  let x := m.field f
  (m.setField f { x with frames := x.frames + 1, dropped := x.dropped + 1 }).addSat (tsDropped f) 1

/-- A sample period: a frame is collected and written, or dropped where the stratum cannot take it (log entry 21). -/
def Mod.traceFrame (m : Mod) (f : Nat) : Mod :=
  if !m.isSet (tcEn f) || m.isSet (tsFull f) || !m.fieldOn f then m
  else if !m.stratReady f then m.traceDrop f
  else
    let r := m.traceLines f
    let m := r.1.each (List.range (r.2.length / 64)) (fun m i => m.traceLine f (slice r.2 (64 * i) 64))
    m.setField f { m.field f with frames := (m.field f).frames + 1, dropped := 0 }

/-- TRACE_FRAME (R429, R430). -/
def execTraceFrame (f : Fin 72) (s : State) : Host.Outcome State Fault Refusal := onField s f (fun m => m.traceFrame f)

end Sys2Proof.Machine
end

