-- ==== Sys2Proof/Machine/EncoreCmds.lean ====
section
/-! DEFINITION. The commands of encores (R374 to R378), of rehearsals (R380 to R382), of dead cells (R383, R384) and of error
delivery (R387). -/

namespace Sys2Proof.Machine

/-! Encores. -/

/-- The encore of a company where it is in a phase and Prompter runs. -/
def Mod.encoreIn (m : Mod) (c phase : Nat) : Bool := m.prompterUp && decide ((m.co c).enc.phase = phase)

def Mod.setEnc (m : Mod) (c : Nat) (g : Encore → Encore) : Mod := m.modCo c (fun x => { x with enc := g x.enc })

/-! A replay served for another device (R375). -/

/-- Bytes written over a range of the stratum with fresh check bits. -/
def Mod.freshStrat (m : Mod) (k : Nat) (bs : List Byte) : Mod :=
  let l := burstsOf k bs.length
  { m with
    strat := writeBytes m.strat k bs, stratBad := m.stratBad.filter (fun b => !shas l b)
    stratLatent := m.stratLatent.filter (fun b => !shas l b) }.know k bs.length

/-- The bytes that the origin copied, slot after slot: the bottom SLOT_BYTES less the output range `(o, n)`. -/
def Mod.serveData (m : Mod) (c slotBytes o n : Nat) (data : List Byte) : Mod :=
  let top := slotBytes - (o + n)
  m.each (List.range (m.coFields c).length) (fun m k =>
    let f := m.slotField c k
    let d := slice data (k * (o + top)) (o + top)
    (m.freshStrat (stratKeyOf f 0) (slice d 0 o)).freshStrat (stratKeyOf f (o + n)) (slice d o top))

/-- Whether a company waits to serve a replay: MODE 3, LOADED (R375). -/
def Mod.mayServe (m : Mod) (c : Nat) : Bool :=
  m.prompterUp && decide (m.get (encMode c) = 3 ∧ m.coState c = stLoaded ∧ (m.co c).enc.phase = 0)

/-- A served replay begun: the copied data in place, the scene S0 installed, every scalar core of the production started. No job runs,
so that nothing is written into the company's rings. -/
def Mod.serveBegin (m : Mod) (c s0 o n : Nat) (data : List Byte) : Mod :=
  match (m.co c).prod with
  | none => m
  | some p =>
    if m.hasScene c s0 && decide (o + n ≤ p.slotBytes) then
      let m := (m.serveData c p.slotBytes o n data).each (m.coFields c) (fun m f => m.installField c f s0 false)
      let m := ((m.installed c s0).sceneCsr c s0).setEnc c (fun _ => { Encore.zero with phase := 2, serving := true })
      m.eachCell p.cells (startCell (m.entryOf c s0))
    else m

/-- ENCORE_COPY_DONE (R375): the replay starts. On the origin `fit` says whether the partner's company meets the mode's conditions, which
the two Prompters have checked; where it does not, the step commits unverified with reason 6. On a company that serves, S0, the output
range and the data are what the origin sent (DESIGN CHOICE, log entry 55). -/
def execEncoreCopyDone (x : EncoreCopy) (s : State) : Host.Outcome State Fault Refusal :=
  onMod s (fun m =>
    if m.encoreIn x.co 1 then
      if x.fit then (m.setEnc x.co (fun e => { e with phase := 2 })).put (esReplaying x.co) 1
      else (m.put (esWhy x.co) 6).commitUnverified x.co (m.co x.co).enc.atEnd
    else if x.fit && m.mayServe x.co then m.serveBegin x.co x.s0 x.off x.len x.data
    else m)

/-- A replay at its end boundary: its digest, its trips, whether it ended where the original did. In field mode the digest and the trips
are those of FE. -/
def Mod.replayEnd (m : Mod) (c trips : Nat) (sameEnd : Bool) (digest : List Byte) : Mod :=
  let fe := decide (m.get (encMode c) = 1)
  let other := if fe then m.digest c (m.replayAt c) ((m.outRange c).getD (0, 0)).2 else digest
  let m := (m.fieldStop c).put (esReplaying c) 0
  m.setEnc c (fun e => { e with phase := 3, other := other, trips := if fe then e.trips else trips, sameEnd := sameEnd })

/-- ENCORE_REPLAY_END (R374, R376): the digest is the partner's in partner mode; a replay served here ends with nothing kept but the
copied data (R375). -/
def execEncoreReplayEnd (co : Fin 16) (trips : Nat) (sameEnd : Bool) (digest : List Byte) (s : State) :
    Host.Outcome State Fault Refusal :=
  onMod s (fun m =>
    if m.encoreIn co 2 then (if (m.co co).enc.serving then m.serveEnd co else m.replayEnd co trips sameEnd digest) else m)

/-- The cells that tripped in the step, in the order they did. -/
def Mod.trippedCells (m : Mod) (c : Nat) : List (Nat × Nat) := ((m.co c).job.map (·.tripped)).getD []

def Mod.markTripped (m : Mod) (c : Nat) : Mod := m.each (m.trippedCells c) (fun m p => m.mark p.1 p.2 1)

/-- An unresolved step: the job stops, LAST_INTERVAL at S0 (Table 17-2). -/
def Mod.unresolved (m : Mod) (c : Nat) : Mod :=
  let p := ((m.trippedCells c).head?).getD (0, 0)
  let m := ((m.put (esOutcome c) 5).encoreRecord c 5).markTripped c
  (m.backToS0 c).stopJob c 0x302 (infoFault 0x20 p.1 p.2 pcOnes) false

/-- The outcome of an encore (Table 17-2). -/
def Mod.compareDigests (m : Mod) (c : Nat) : Mod :=
  let e := (m.co c).enc
  if e.own = e.other then (((m.put (esOutcome c) 2).addSat (jrFalseAlarm c) 1).encoreRecord c 2).commit c e.atEnd
  else if e.trips = 0 ∧ e.sameEnd = true then (m.markTripped c).setEnc c (fun e => { e with phase := 4 })
  else m.unresolved c

/-- ENCORE_DIGEST_COMPARE (R376). -/
def execEncoreDigestCompare (co : Fin 16) (s : State) : Host.Outcome State Fault Refusal :=
  onMod s (fun m => if m.encoreIn co 3 then m.compareDigests co else m)

/-- One slot's output range replaced by the replay's, from the staging area, or from the partner's bytes (R376). -/
def Mod.replaceSlot (m : Mod) (c k : Nat) (data : List Byte) : Mod :=
  let n := ((m.outRange c).getD (0, 0)).2
  let bs := if m.get (encMode c) = 1 then readBytes m.strat (m.replayAt c k) n else slice data (k * n) n
  m.freshStrat (m.ownAt c k) bs

/-- ENCORE_COPY_BACK_DONE (R376): a mismatch commits. -/
def execEncoreCopyBackDone (co : Fin 16) (data : List Byte) (s : State) : Host.Outcome State Fault Refusal :=
  onMod s (fun m =>
    if m.encoreIn co 4 then
      let m := m.each (List.range (m.coFields co).length) (fun m k => m.replaceSlot co k data)
      (((m.put (esOutcome co) 3).addSat (jrMismatch co) 1).encoreRecord co 3).commit co (m.co co).enc.atEnd
    else m)

/-- REPLAY_TIMEOUT (R376): the replay exceeds REPLAY_S, or is abandoned because the partner was reset or cut off, lost a cell, or answered
0x02 (Table 17-4). -/
def execReplayTimeout (co : Fin 16) (s : State) : Host.Outcome State Fault Refusal :=
  onMod s (fun m =>
    if (m.co co).enc.serving then (if m.prompterUp then m.serveEnd co else m)
    else if m.encoreIn co 1 || m.encoreIn co 2 || m.encoreIn co 3 then (m.fieldStop co).commitUnverified co (m.co co).enc.atEnd else m)

/-! Rehearsals (R380 to R382). -/

/-- The marks of a field: entries of REH_LIST. -/
def Mod.marksOf (m : Mod) (f : Nat) : List Nat :=
  (List.range 256).filter (fun i => let w := m.reg (rhOff i); bit w 63 && decide (bits w 56 50 = f))

/-- The row of a mark. -/
def Mod.markRow (m : Mod) (i : Nat) : Nat := bits (m.reg (rhOff i)) 49 41 / 24

/-- The cells that a rehearsal of a field covers: whole rows in service that hold a marked cell (R381). -/
def Mod.toRehearse (m : Mod) (f : Nat) : List (Nat × Nat) :=
  ((List.range 16).filter (fun r => !m.rowOut f r && (m.marksOf f).any (fun i => decide (m.markRow i = r)))).flatMap
    (fun r => (List.range 25).map (fun p => (r, p)))

/-- Whether no job needs a field's cells (R380). -/
def Mod.mayRehearse (m : Mod) (f : Nat) : Bool :=
  match m.coOf f with
  | none => true
  | some c => decide (m.coState c = stEmpty ∨ m.coState c = stLoaded)

/-- A rehearsal begun: the field at 0.97 GHz; a field that is off is powered first, and one that the hard threshold or a sensor fault keeps
on the fallback clock begins none (R346). -/
def Mod.rehearse (m : Mod) (f : Nat) : Mod :=
  let cells := m.toRehearse f
  if !m.pfAll || cells.isEmpty || !(m.field f).rehearsing.isEmpty || !m.mayRehearse f || m.isSet (fcFault f) || m.kept f then m
  else if !m.fieldOn f then (if m.get (fsDomain f) = 0 then m.requestPower true [f] else m)
  else
    let m := (m.setField f { m.field f with rehearsing := cells }).countRehearsals
    let m := match m.coOf f with
      | some c => if m.coState c = stLoaded then m.put (reloadNeeded c) 1 else m
      | none => m
    m.requestSwitch f 97

/-- REHEARSAL_START (R380, R381). -/
def execRehearsalStart (f : Fin 72) (s : State) : Host.Outcome State Fault Refusal := onField s f (fun m => m.rehearse f)

/-- A field that nothing needs on any more powered down (R340). -/
def Mod.restPower (m : Mod) (f : Nat) : Mod := if m.fieldOn f && !m.wantsPower f then m.requestPower false [f] else m

/-- A record of class 0x07 (Table 17-7). -/
def Mod.rehearsalRecord (m : Mod) (f row pcol what reason : Nat) : Mod :=
  m.recordFree ⟨0, 7, 1, wherePhys f row pcol (m.lcol f row pcol), 8 * 256, 0, m.coOf f, what + reason * 2 ^ 8⟩

/-- A mark's cell passed: the mark is cleared. -/
def Mod.markPassed (m : Mod) (f i : Nat) : Mod :=
  let w := m.reg (rhOff i)
  if bit w 63 then (m.unmark i).rehearsalRecord f (bits w 49 41 / 24) (bits w 40 36) 2 (bits w 35 32) else m

/-- A rehearsal's end: failed cells by row and physical column. -/
def Mod.rehearsed (m : Mod) (f : Nat) (failed : List (Nat × Nat)) : Mod :=
  let cells := (m.field f).rehearsing
  if cells.isEmpty then m
  else
    let marks := (m.marksOf f).filter (fun i => cells.any (fun p => decide (p.1 = m.markRow i)))
    let bad := cells.filter (fun p => failed.any (fun q => decide (q = p)))
    let good := marks.filter (fun i => !bad.any (fun p => decide (p = (m.markRow i, bits (m.reg (rhOff i)) 40 36))))
    let m := (m.setField f { m.field f with rehearsing := [] }).countRehearsals
    let m := m.each good (fun m i => m.markPassed f i)
    let m := m.each bad (fun m p => (m.rehearsalRecord f p.1 p.2 3 0).judgeDead f p.1 p.2)
    let m := if m.isSet (fsHard f) || m.isSet (fsSensor f) || !m.fieldOn f then m
      else (m.put (fsOp f) (m.effective f)).requestSwitch f (opFreq (m.effective f))
    m.restPower f

/-- REHEARSAL_END (R381). -/
def execRehearsalEnd (f : Fin 72) (failed : List (Nat × Nat)) (s : State) : Host.Outcome State Fault Refusal :=
  onField s f (fun m => m.rehearsed f failed)

/-- A mark overdue (R382): a running job that includes the cell counts it. -/
def Mod.overdue (m : Mod) (i : Nat) : Mod :=
  let w := m.reg (rhOff i)
  if !bit w 63 || bit w 62 then m
  else
    let f := bits w 56 50
    let l := bits w 49 41
    let m := (m.setReg (rhOff i) (setBits w 62 62 1)).addSat rhOverdue 1
    let m := m.record ⟨2, 7, 1, whereCell m f l 0, 8 * 256, 0, m.coOf f, 4 + bits w 35 32 * 2 ^ 8⟩
    match m.coOf f with
    | some c => if m.isJobCell c f l then m.addSat (jrFlagged c) 1 else m
    | none => m

/-- REHEARSAL_OVERDUE (R382). -/
def execRehearsalOverdue (i : Fin 256) (s : State) : Host.Outcome State Fault Refusal :=
  onMod s (fun m => if m.prompterUp then m.overdue i else m)

/-! Dead cells (R383, R384). -/

/-- The key of a unit of a physical cell. -/
def probeKey (place unit : Nat) : Nat := place * 13 + unit

/-- A liveness probe: the second failure in a row judges the cell dead. -/
def Mod.probe (m : Mod) (f l unit : Nat) (ok : Bool) : Mod :=
  let k := probeKey (m.place f l) unit
  if ok then { m with probeFails := sdel m.probeFails k }
  else if shas m.probeFails k then { m with probeFails := sdel m.probeFails k }.judgeDead f (l / 24) (m.pcol f (l / 24) (l % 24))
  else { m with probeFails := sadd m.probeFails k }

/-- LIVENESS_PROBE (R383). -/
def execLivenessProbe (c : CellRef) (unit : Fin 13) (ok : Bool) (s : State) : Host.Outcome State Fault Refusal :=
  onField s c.field (fun m =>
    if m.fieldOn c.field && m.cellOk c.field c.lcell then m.probe c.field c.lcell unit ok else m)

/-- CELL_DEATH (R366, R383): only a powered cell is judged. -/
def execCellDeath (f : Fin 72) (row : Fin 16) (pcol : Fin 25) (s : State) : Host.Outcome State Fault Refusal :=
  onField s f (fun m => if m.fieldOn f then m.judgeDead f row pcol else m)

/-- UNDERSTUDY_CALL (R384). -/
def execUnderstudyCall (f : Fin 72) (row : Fin 16) (ok : Bool) (s : State) : Host.Outcome State Fault Refusal :=
  onField s f (fun m => (m.understudy f row ok).restPower f)

/-! Error delivery (R387). -/

/-- The 64 bytes of a record in the ring. -/
def Mod.ringBytes (m : Mod) (q : Nat) : List Byte := wordBytes ((List.range 8).map (fun w => m.reg (ringEntry (q % 4096) + 8 * w)))

/-- The 16 bytes of ERR_DEST_IP as a number. -/
def Mod.errIp (m : Mod) : Nat := (m.reg (errBase + 0x10)).toNat + (m.reg (errBase + 0x18)).toNat * 2 ^ 64

/-- The oldest record not yet handled sent, or counted in NOT_SENT. -/
def Mod.sendRecord (m : Mod) (up : Bool) : Mod :=
  match m.unsent with
  | [] => m
  | q :: rest =>
    let m := { m with unsent := rest }
    if up && m.isSet errEn then m.emit (.datagram m.errIp (m.get errPort) (m.ringBytes q)) else m.addSat errNotSent 1

/-- ERROR_DATAGRAM (R387): `up`: whether the management port is up. -/
def execErrorDatagram (up : Bool) (s : State) : Host.Outcome State Fault Refusal :=
  onMod s (fun m => if m.prompterUp then m.sendRecord up else m)

end Sys2Proof.Machine
end

