-- ==== Sys2Proof/Machine/MatrixCmds.lean ====
section
/-! DEFINITION. The commands of the matrix cores (04, Table 04-5): the command at the head of a core's queue begins, or a begun one
completes. -/

namespace Sys2Proof.Machine

/-- MMA begins (R96). -/
def execMma (c : CellRef) (u : Fin 6) (s : State) :
    Host.Outcome State Fault Refusal :=
  onMatrix s c (opMatrix 0x01) (mmaStep u)

/-- MMASP begins (R116). -/
def execMmasp (c : CellRef) (u : Fin 6) (s : State) :
    Host.Outcome State Fault Refusal :=
  onMatrix s c (opMatrix 0x03) (mmaspStep u)

/-- PREVIEW begins (R97). -/
def execPreview (c : CellRef) (u : Fin 6) (s : State) :
    Host.Outcome State Fault Refusal :=
  onMatrix s c (opMatrix 0x04) (previewStep u)

/-- LDACC begins (R98). -/
def execLdacc (c : CellRef) (u : Fin 6) (s : State) :
    Host.Outcome State Fault Refusal :=
  onMatrix s c (opMatrix 0x08) (ldaccStep u)

/-- STACC begins (R99). -/
def execStacc (c : CellRef) (u : Fin 6) (s : State) :
    Host.Outcome State Fault Refusal :=
  onMatrix s c (opMatrix 0x09) (staccStep u)

/-- ZACC begins (R100). -/
def execZacc (c : CellRef) (u : Fin 6) (s : State) :
    Host.Outcome State Fault Refusal :=
  onMatrix s c (opMatrix 0x0A) (zaccStep u)

/-- SEED begins (R75, R100). -/
def execSeed (c : CellRef) (u : Fin 6) (s : State) :
    Host.Outcome State Fault Refusal :=
  onMatrix s c (opMatrix 0x0C) (seedStep u)

/-- SETMASK begins (R100). -/
def execSetmask (c : CellRef) (u : Fin 6) (s : State) :
    Host.Outcome State Fault Refusal :=
  onMatrix s c (opMatrix 0x0D) (setmaskStep u)

/-- SYNC begins (R93). -/
def execSync (c : CellRef) (u : Fin 6) (s : State) :
    Host.Outcome State Fault Refusal :=
  onMatrix s c (opMatrix 0x0F) (syncStep u)

/-- The opcode of the i-th begun command of a core. -/
def begunOp (c : Cell) (u i : Nat) : Nat := (((c.mat u).begun[i]?).map (fun b => cOp b.cmd)).getD 0

/-- MATRIX_COMMAND_COMPLETE (R93, R103, R105): the i-th begun command. -/
def execMatrixCommandComplete (c : CellRef) (u : Fin 6) (i : Nat) (s : State) :
    Host.Outcome State Fault Refusal :=
  onField s c.field (fun m =>
    if m.cellRuns c.field c.lcell then
      m.runCell c.field c.lcell (opMatrix (begunOp (m.cell c.field c.lcell) u i))
        (matrixComplete (m.env c.field c.lcell) u i)
    else m)

end Sys2Proof.Machine
end

