-- ==== Sys2Proof/Machine/MeshCmds.lean ====
section
/-! DEFINITION. The commands of the fly engines, the mesh, asides and the host window (08, 09, R239, R303). -/

namespace Sys2Proof.Machine

/-- A step of a cell's fly engine or delivery port, where its field's compute domain is on. -/
def atCell (s : State) (c : CellRef) (g : Mod → Mod) : Host.Outcome State Fault Refusal :=
  onField s c.field (fun m => if m.cellRuns c.field c.lcell then g m else m)

/-- FLY_REQUEST_ISSUE (R195, R199, R201, R235): none while the job is held (R273). -/
def execFlyRequestIssue (c : CellRef) (s : State) : Host.Outcome State Fault Refusal :=
  atCell s c (fun m => if m.coHeld (m.coOf c.field) then m else m.flyIssue c.field c.lcell)

/-- FLY_REPLY (R198, R203, R401). -/
def execFlyReply (c : CellRef) (i : Nat) (s : State) : Host.Outcome State Fault Refusal :=
  atCell s c (fun m => m.flyReply c.field c.lcell i)

/-- FLY_TRANSFER_COMPLETE (R202, R203). -/
def execFlyTransferComplete (c : CellRef) (tag : Fin 16) (s : State) : Host.Outcome State Fault Refusal :=
  onCell s c 0x400 (fun _ => flyEnd tag)

/-- CELL_MEMORY_REQUEST (R212, R401): the request that waits longest at the cell's fly engine. -/
def execCellMemoryRequest (c : CellRef) (s : State) : Host.Outcome State Fault Refusal :=
  atCell s c (fun m => m.cellRequest c.field c.lcell)

/-- ASIDE_DELIVERY (R54, R222, R401). -/
def execAsideDelivery (c : CellRef) (s : State) : Host.Outcome State Fault Refusal :=
  atCell s c (fun m => m.asideIn c.field c.lcell)

/-- ASIDE_REFUSAL (R148, R222). -/
def execAsideRefusal (c : CellRef) (s : State) : Host.Outcome State Fault Refusal :=
  atCell s c (fun m => m.refusalIn c.field c.lcell)

/-- MESH_PACKET_HOP (R208 to R215, R316, R403). -/
def execMeshPacketHop (o : MeshOut) (s : State) : Host.Outcome State Fault Refusal :=
  onMod s (fun m => m.meshHop o.reply o.mx o.my o.dir)

/-- MESH_FLIT_PARITY_ERROR (R369). -/
def execMeshFlitParityError (o : MeshOut) (e : FlitError) (s : State) : Host.Outcome State Fault Refusal :=
  onMod s (fun m => m.flitError o.reply o.mx o.my o.dir e)

/-- HOST_WINDOW_ACCESS (R239, R281, R303). -/
def execHostWindowAccess (hp : Fin 4) (res : HostReply) (s : State) : Host.Outcome State Fault Refusal :=
  onMod s (fun m => m.hostAccess hp res)

end Sys2Proof.Machine
end

