-- ==== Sys2Proof/Machine/Pins.lean ====
section
/-! DEFINITION. The management connector's outputs (R442 to R444) and the TAP (R451). -/

namespace Sys2Proof.Machine

/-- Whether EXTEST drives the pins: only while PWR_EN is low (R451). -/
def extest (s : State) : Bool := s.sb.on && !s.sb.pwrEn && decide (s.sb.ir = 0)

/-- A cell of the boundary register. -/
def boundaryCell (s : State) (k : Nat) : Bool := decide (s.sb.boundary / 2 ^ k % 2 = 1)

/-- FAULT_N: whether it is driven, and high (Table 21-4). -/
def faultN (s : State) : Bool × Bool :=
  if extest s then (boundaryCell s 11, boundaryCell s 10)
  else if !s.sb.pwrEn || decide (s.sb.phase = .off) then (false, false)
  else (true, s.sb.runs && s.m.prompterUp && !s.m.ghost)

/-- Whether ALERT_N and THERMTRIP_N are driven low; in the dark state neither is (R442). -/
def alertN (s : State) : Bool :=
  if extest s then !boundaryCell s 8 else s.m.alert && !decide (s.sb.phase = .dark)
def thermtripN (s : State) : Bool :=
  if extest s then !boundaryCell s 9 else s.sb.thermtrip && s.sb.pwrEn && !decide (s.sb.phase = .dark)

/-- ALERT_RESPONSE (R443): a read of the Alert Response Address that the module's address wins. -/
def execAlertResponse (s : State) : Host.Outcome State Fault Refusal :=
  onMod s (fun m => if s.sb.on && !m.ghost && !m.isSet rtRomLoop then { m with alert := false } else m)

/-- What the 12 boundary cells capture; the SMBus pins are the board's and the bus's, free values (log entry 2). -/
def pinsOf (s : State) (draw : Word) : BitVec 12 :=
  let fn := faultN s
  let perst := ((List.range 4).map (fun p => if shas s.m.perstLow p then 0 else 2 ^ p)).foldl (· + ·) 0
  BitVec.ofNat 12 (perst + ofBool s.sb.pwrEn * 2 ^ 4 + bits draw 2 0 * 2 ^ 5 + ofBool (!alertN s) * 2 ^ 8 + ofBool (!thermtripN s) * 2 ^ 9 +
    ofBool fn.2 * 2 ^ 10 + ofBool fn.1 * 2 ^ 11)

/-- A boundary scan: the pins captured go out, and what was shifted in is held. -/
def scan (s : State) (ir : Nat) (shift : BitVec 12) : State :=
  let d := s.m.draw
  { s with sb := { s.sb with ir := ir, boundary := shift.toNat }, m := d.2.emit (.tap (pinsOf s d.1).toNat) }

/-- BYPASS: its one bit captures 0. -/
def bypassed (s : State) (ir : Nat) : State := { s with sb := { s.sb with ir := ir }, m := s.m.emit (.tap 0) }

/-- EXTEST (R451): only while PWR_EN is low; it acts as BYPASS otherwise. -/
def execExtest (shift : BitVec 12) (s : State) : Host.Outcome State Fault Refusal :=
  if s.sb.on then .next (if s.sb.pwrEn then bypassed s 15 else scan s 0 shift) else .next s

/-- IDCODE (R451). -/
def execIdcode (s : State) : Host.Outcome State Fault Refusal :=
  if s.sb.on then .next { s with sb := { s.sb with ir := 1 }, m := s.m.emit (.tap 0x0A1709CD) } else .next s

/-- SAMPLE/PRELOAD (R451). -/
def execSamplePreload (shift : BitVec 12) (s : State) : Host.Outcome State Fault Refusal :=
  if s.sb.on then .next (scan s 2 shift) else .next s

/-- BYPASS (R451). -/
def execBypass (s : State) : Host.Outcome State Fault Refusal := if s.sb.on then .next (bypassed s 15) else .next s

end Sys2Proof.Machine
end

