-- ==== Sys2Proof/Machine/SceneCmds.lean ====
section
/-! DEFINITION. The commands of scene changes (R168 to R174), of the chorus start (R267), of a held job (R273, R274) and of the job
number (R278). -/

namespace Sys2Proof.Machine

/-- A write to SCENE_CTRL (R9, R168, R459). -/
def Mod.sceneCtrl (m : Mod) (c : Nat) (v : Word) : Mod :=
  let go := bit v 31
  let stage := bit v 29
  let o := coBase c + 0x100
  if go && stage then m.put (scGoLost c) 1
  else if !go && !stage then m.plainWrite o v
  else if m.isSet (scBusy c) then m.put (scGoLost c) 1
  else if !m.isSet (cdEn c) then m
  else
    let st := m.sceneDecision c (bits v 23 16) go
    if st ≠ 0 then m.put (scResult c) st
    else
      let m := m.plainWrite o v
      m.sceneBegin c (m.get (scTarget c)) (m.isSet (scForced c)) (m.get (scStrikeUs c)) (m.get (scAckMs c)) none go

/-- SCENE_GO (R168). -/
def execSceneGo (co : Fin 16) (src : WSrc) (v : Word) (s : State) : Host.Outcome State Fault Refusal :=
  onCo s co src (fun m => m.sceneCtrl co v)

/-- SCENE_STAGE (R168). -/
def execSceneStage (co : Fin 16) (src : WSrc) (v : Word) (s : State) : Host.Outcome State Fault Refusal :=
  onCo s co src (fun m => m.sceneCtrl co v)

/-- STAGING_COMPLETE (R168). -/
def execStagingComplete (co : Fin 16) (s : State) : Host.Outcome State Fault Refusal := onMod s (fun m => m.stagingDone co)

/-- SCENE_REQUEST (R169): the Stagehand of a field asks the field's job cells. -/
def execSceneRequest (co : Fin 16) (f : Fin 72) (s : State) : Host.Outcome State Fault Refusal :=
  onField s f (fun m => m.sceneRequest co f)

/-- A graceful strike that has ended clean (R171). -/
def Mod.strikeClean (m : Mod) (c : Nat) : Mod :=
  match (m.co c).change with
  | none => m
  | some g =>
    if g.phase = 2 ∧ g.forced = false ∧ m.rigTokens c = 0 then (m.put (scDiscarded c) 0).strikeDone c else m

/-- STRIKE_CLEAN (R171). -/
def execStrikeClean (co : Fin 16) (s : State) : Host.Outcome State Fault Refusal := onMod s (fun m => m.strikeClean co)

/-- A graceful strike past STRIKE_US (R171). -/
def Mod.strikeTimeout (m : Mod) (c : Nat) : Mod :=
  match (m.co c).change with
  | none => m
  | some g =>
    if g.phase = 2 ∧ g.forced = false then
      (m.modCo c (fun x => { x with change := some { g with timedOut := true } })).forcedStrike c
    else m

/-- STRIKE_TIMEOUT (R171). -/
def execStrikeTimeout (co : Fin 16) (s : State) : Host.Outcome State Fault Refusal := onMod s (fun m => m.strikeTimeout co)

/-- ACK_TIMEOUT (R170, R301). -/
def execAckTimeout (co : Fin 16) (s : State) : Host.Outcome State Fault Refusal := onMod s (fun m => m.ackTimeout co)

/-- SCENE_INSTALL (R172). -/
def execSceneInstall (co : Fin 16) (f : Fin 72) (s : State) : Host.Outcome State Fault Refusal :=
  onField s f (fun m => m.sceneInstall co f)

/-- SCENE_RELEASE (R172). -/
def execSceneRelease (co : Fin 16) (s : State) : Host.Outcome State Fault Refusal := onMod s (fun m => m.sceneRelease co)

/-- CHORUS_GO (R267). -/
def execChorusGo (co : Fin 16) (src : WSrc) (v : Word) (s : State) : Host.Outcome State Fault Refusal :=
  onCo s co src (fun m => if m.isSet (cdEn co) then m.chorusGo co v else m)

/-! Held jobs (R273, R274). -/

/-- A cell's kept accesses sent again, the scalar core's in its order, then the fly engine's in its own (R274). -/
def Mod.reissue (m : Mod) (f l : Nat) : Mod :=
  let c := m.cell f l
  let accs := c.sc.outst.filter (fun a => a.kept)
  let reqs := c.fly.reqs.filter (fun q => q.kept)
  let m := m.modCell f l (fun c => { c with
    sc := { c.sc with outst := c.sc.outst.map (fun a => { a with kept := false }) }
    fly := { c.fly with reqs := c.fly.reqs.map (fun q => { q with kept := false }) } })
  let m := m.each accs (fun m a => m.issueReq f l (m.accReq f l a))
  m.each reqs (fun m q => m.issueReq f l ⟨.fly f l q.id, (m.coOf f).getD 0, q.addr, q.op, m.gens f l true, q.ledger⟩)

/-- A held job resumed (R274); an encore that waited for it begins (Table 17-4). -/
def Mod.resumeJob (m : Mod) (c : Nat) : Mod :=
  let m := ((m.setCoState c stRunning).put (holdHeld c) 0).each (m.prodCells c) (fun m p => m.reissue p.1 p.2)
  if (m.co c).heldAt then m.encoreBegin c (m.co c).enc.atEnd else m

/-- A write to SHEDIN_HOLD (R9, R274, R310, Table 18-6). -/
def Mod.holdCtrl (m : Mod) (c : Nat) (v : Word) : Mod :=
  let re := bit v 1
  let ab := bit v 2
  if m.coState c ≠ stHeld ∨ (m.co c).reset.isSome = true ∨ (re = true ∧ ab = true) then m
  else if re then m.resumeJob c
  else if ab then m.stopJob c 0x402 (BitVec.ofNat 64 (m.get (holdDevice c))) false
  else m

/-- A write that is held for the physical function (R310). -/
def onCoPf (s : State) (c : Nat) (src : WSrc) (g : Mod → Mod) : Host.Outcome State Fault Refusal :=
  onCo s c src (fun m => if src = .pf then g m else m)

/-- RESUME (R274). -/
def execResume (co : Fin 16) (src : WSrc) (v : Word) (s : State) : Host.Outcome State Fault Refusal :=
  onCoPf s co src (fun m => m.holdCtrl co v)

/-- ABANDON (R274). -/
def execAbandon (co : Fin 16) (src : WSrc) (v : Word) (s : State) : Host.Outcome State Fault Refusal :=
  onCoPf s co src (fun m => m.holdCtrl co v)

/-! The job number (R278). -/

/-- Whether another company of the module holds a job number. -/
def Mod.jobTaken (m : Mod) (c j : Nat) : Bool := allCos.any (fun d => decide (d ≠ c ∧ m.get (sjJob d) = j))

/-- A write to SHEDIN_JOB (Table 11-16, R278). -/
def Mod.jobCtrl (m : Mod) (c : Nat) (v : Word) : Mod :=
  let old := m.get (sjJob c)
  let j := bits v 15 0
  let m' := (m.plainWrite (coBase c + 0x200) v).put (sjJob c) old
  m.counted (if j = old then m'
  else if m.coState c ≠ stEmpty then m'.put (sjLost c) 1
  else if j ≠ 0 ∧ m.jobTaken c j = true then m'.put (sjClash c) 1
  else m'.put (sjJob c) j)

/-- SHEDIN_JOB_WRITE (R278, R310). -/
def execShedinJobWrite (co : Fin 16) (src : WSrc) (v : Word) (s : State) : Host.Outcome State Fault Refusal :=
  onCoPf s co src (fun m => m.jobCtrl co v)

end Sys2Proof.Machine
end

