-- ==== Sys2Proof/Machine/RingCmds.lean ====
section
/-! DEFINITION. The commands of the rings: polls, cues and their completions, and the ring registers (R27 to R31, R165 to R168, R282 to
R303). -/

namespace Sys2Proof.Machine

/-- POLL (R284). -/
def execPoll (co : Fin 16) (s : State) : Host.Outcome State Fault Refusal := onMod s (fun m => m.poll co)

/-- POLL_DATA (R283, R284, R286). -/
def execPollData (co : Fin 16) (ok : Bool) (words : List Word) (s : State) : Host.Outcome State Fault Refusal :=
  onMod s (fun m => m.pollData co ok words)

/-- CUE_READ_RETURN (R286, R289, R292). -/
def execCueReadReturn (co : Fin 16) (r : Fin 64) (ok : Bool) (words : List Word) (s : State) : Host.Outcome State Fault Refusal :=
  onMod s (fun m => m.cueReturn co r ok words)

/-! Cues (R289 to R291). -/

/-- A ring's cue of an OP: one with a reserved bit or value, or with a bad host address, completes with 0x0101 or 0x0102 as
it begins; else `go` decides it, given whether it begins now, its bytes and the module. -/
def Mod.cueRow (m : Mod) (c r op : Nat) (bad badAddr : List Byte → Bool) (go : Bool → List Byte → Mod → Mod) : Mod :=
  if m.ghost then m else
  match m.cueOf c r op with
  | none => m
  | some (new, q, m') =>
    match q.bytes with
    | none => m
    | some b =>
      if new && bad b then m'.doneCue c r 0x101 0
      else if new && badAddr b then m'.doneCue c r 0x102 0
      else go new b m'

def noAddr (_ : List Byte) : Bool := false

/-- An operand byte of a cue (Table 12-3), by its offset in the cue. -/
def opnd (b : List Byte) (o n : Nat) : Nat := le b o n

/-- NOP (Table 12-3). -/
def execNop (co : Fin 16) (r : Fin 64) (s : State) : Host.Outcome State Fault Refusal :=
  onMod s (fun m => m.cueRow co r 1 (fun b => cueBad b []) noAddr (fun _ _ m => m.doneCue co r 0 0))

/-! LOAD (R28, R291, R298). -/

def loadBad (b : List Byte) : Bool :=
  cueBad b [(0, 8), (8, 8), (16, 8), (24, 2)] || decide (opnd b 0x28 2 = 0 ∧ opnd b 0x20 8 ≠ 0)

def loadAddr (b : List Byte) : Bool :=
  decide (opnd b 0x10 8 = 0 ∨ opnd b 0x10 8 % 4096 ≠ 0 ∨ (opnd b 0x28 2 ≠ 0 ∧ (opnd b 0x20 8 = 0 ∨ opnd b 0x20 8 % 64 ≠ 0)))

/-- Steps 1 to 3 of Table 12-12: a refusal, or the state LOADING with the image as checked. -/
def Mod.loadBegin (m : Mod) (c r : Nat) (rd : ImageRead) (b : List Byte) : Mod :=
  if m.coState c ≠ stEmpty then m.doneCue c r 0x201 (loadInfo noSect 0 0 0 0)
  else
    let n := opnd b 0x18 8
    let ng := opnd b 0x28 2
    let a := BitVec.ofNat 64 (opnd b 0x10 8)
    let m := m.loadReads c a (BitVec.ofNat 64 (opnd b 0x20 8)) rd.image n ng
    match m.checkLoad c rd n ng with
    | some (st, info) => m.doneCue c r st info
    | none =>
      let x : Loading := ⟨r, a, slice rd.image 0 n, rd.groups⟩
      let m := (m.modCo c (fun y => { y with loading := some x, remProd := 0 })).setReg (energyProd c).off 0
      (m.holdEntries c x).setCoState c stLoading

/-- LOAD (R27, R28, R291, R298, R299). -/
def execLoad (co : Fin 16) (r : Fin 64) (rd : ImageRead) (s : State) : Host.Outcome State Fault Refusal :=
  onMod s (fun m =>
    if m.prompterUp then m.cueRow co r 2 loadBad loadAddr (fun new b m => if new then m.loadBegin co r rd b else m) else m)

/-- LOAD_FINISH (R56, R185, R265, R294 to R298). -/
def execLoadFinish (co : Fin 16) (rd : ImageRead) (s : State) : Host.Outcome State Fault Refusal :=
  onMod s (fun m => m.loadFinish co rd)

/-! RUN (R300). -/

/-- Job cells that are overdue for rehearsal (R382). -/
def Mod.flagged (m : Mod) (c : Nat) : Nat :=
  ((List.range 256).filter (fun i =>
    let w := m.reg (rhOff i)
    bit w 63 && bit w 62 && (m.prodCells c).any (fun p => decide (p = (bits w 56 50, bits w 49 41))))).length

/-- A job begun in scene s0: ARG, the scene installed with no strike, every scalar core started (R174, R300, R370, R389). -/
def Mod.runBegin (m : Mod) (c r s0 : Nat) (p : Production) (b : List Byte) : Mod :=
  let m := m.coWrite c p.argOff (slice b 0x20 32)
  let st := m.holdsStaged c s0
  let m := (m.put (swDropped c) 0).each (m.coFields c) (fun m f => m.installField c f s0 st)
  let m := ((m.installed c s0).sceneCsr c s0).setCoState c stRunning
  let m := m.modCo c (fun x => { x with job := some ⟨r, s0, s0, none, none, [], []⟩, heldAt := false, enc := .zero, remJob := 0 })
  let m := ((m.setReg (jrTrips c).off 0).setReg (jrFlagged c).off 0).setReg (energyJob c).off 0
  let m := (m.addSat (jrFlagged c) (m.flagged c)).stepBegin c s0 0
  m.eachCell p.cells (startCell (((p.scenes[s0]?).map (·.2)).getD 0))

def Mod.runGo (m : Mod) (c r : Nat) (b : List Byte) : Mod :=
  let s0 := opnd b 0x10 1
  let st := m.coState c
  match (m.co c).prod with
  | none => m.doneCue c r (if st = stUnloading then 0x106 else 0x104) 0
  | some p =>
    if st = stRunning ∨ st = stHeld ∨ (m.co c).enc.serving = true then m.doneCue c r 0x105 0
    else if st = stUnloading then m.doneCue c r 0x106 0
    else if m.isSet (reloadNeeded c) then m.doneCue c r 0x109 0
    else if s0 ≠ 0 ∧ m.isInterval c s0 = false then m.doneCue c r 0x10A 0
    else m.runBegin c r s0 p b

/-- RUN (R291, R300). -/
def execRun (co : Fin 16) (r : Fin 64) (s : State) : Host.Outcome State Fault Refusal :=
  onMod s (fun m => m.cueRow co r 3 (fun b => cueBad b [(0, 1), (2, 2), (16, 32)]) noAddr
    (fun new b m => if new then m.runGo co r b else m))

/-! UNLOAD (R31, R291). -/

/-- Whether a cue of another ring that refers to the production has begun and not completed (R31): a LOAD, RUN, SCENE or STOP. -/
def Mod.refersElse (m : Mod) (c r : Nat) : Bool :=
  allRings.any (fun k => decide (k ≠ r) &&
    match (m.ring c k).cur with
    | some q => (match q.bytes with | some b => shas [2, 3, 5, 6] (cueOp b) | none => false)
    | none => false)

/-- An UNLOAD decided: it waits for a load or a job to end and for the cues that refer to the production (R31), begins, and, begun,
ends. -/
def Mod.unloadGo (m : Mod) (c r : Nat) : Mod :=
  let st := m.coState c
  if st = stUnloading then
    if (m.co c).unloading = some r then (m.release c).endLoad c r 0 0 false else m.doneCue c r 0x106 0
  else if st = stEmpty then m.doneCue c r 0x104 0
  else if st = stLoaded ∧ m.refersElse c r = false then (m.setCoState c stUnloading).modCo c (fun x => { x with unloading := some r })
  else m

/-- UNLOAD (R31, R291). -/
def execUnload (co : Fin 16) (r : Fin 64) (s : State) : Host.Outcome State Fault Refusal :=
  onMod s (fun m => if m.prompterUp then m.cueRow co r 4 (fun b => cueBad b []) noAddr (fun _ _ m => m.unloadGo co r) else m)

/-! SCENE (R168, R291). -/

/-- A SCENE cue decided: with no job 0x0506; it waits while BUSY; else R168. -/
def Mod.sceneCue (m : Mod) (c r : Nat) (new : Bool) (b : List Byte) : Mod :=
  let t := opnd b 0x10 1
  if !m.hasJob c then
    let m := if new then m.put (scResult c) 6 else m
    m.doneCue c r 0x506 (m.infoScene c)
  else if m.isSet (scBusy c) then m
  else if !m.hasScene c t then
    let m := m.put (scResult c) 5
    m.doneCue c r 0x505 (m.infoScene c)
  else m.sceneBegin c t (decide (opnd b 0x11 1 = 1)) (opnd b 0x12 1) (opnd b 0x13 1) (some r) true

/-- Whether a SCENE cue began the change that runs. -/
def Mod.changeOf (m : Mod) (c r : Nat) : Bool :=
  match (m.co c).change with
  | some g => decide (g.cue = some r)
  | none => false

/-- SCENE (R168, R291). -/
def execScene (co : Fin 16) (r : Fin 64) (s : State) : Host.Outcome State Fault Refusal :=
  onMod s (fun m => m.cueRow co r 5
    (fun b => cueBad b [(0, 4)] || decide (1 < opnd b 0x11 1 ∨ opnd b 0x12 1 = 0 ∨ opnd b 0x13 1 = 0)) noAddr
    (fun new b m => if m.changeOf co r then m else m.sceneCue co r new b))

/-! STOP (R301). -/

def stopBad (b : List Byte) : Bool := cueBad b [(0, 1)] || decide (1 < opnd b 0x10 1)

/-- STOP_AT_INTERVAL (R291, R301). -/
def execStopAtInterval (co : Fin 16) (r : Fin 64) (s : State) : Host.Outcome State Fault Refusal :=
  onMod s (fun m =>
    let m' := m.cueRow co r 6 stopBad noAddr (fun _ b m =>
      if !m.hasJob co then m.doneCue co r 0x10B 0
      else if opnd b 0x10 1 = 0 then (m.put (stopPending co) 1).doneCue co r 0 0
      else m)
    match m.cueOf co r 6 with
    | some (_, q, _) => if opnd (q.bytes.getD []) 0x10 1 = 1 ∧ stopBad (q.bytes.getD []) = false then m else m'
    | none => m)

/-- A STOP with MODE 1 decided: the job stopped, unless its last job end came first; begun, it completes after the run. -/
def Mod.stopNow (m : Mod) (c r : Nat) (new : Bool) : Mod :=
  if !m.hasJob c then m.doneCue c r (if new then 0x10B else 0) 0
  else if !new || (m.allEnded c && !m.isSet (esStaging c)) then m
  else (m.backToS0 c).stopJob c 0x305 0 false

/-- STOP_NOW (R291, R301, Table 17-4). -/
def execStopNow (co : Fin 16) (r : Fin 64) (s : State) : Host.Outcome State Fault Refusal :=
  onMod s (fun m =>
    let m' := m.cueRow co r 6 stopBad noAddr (fun new _ m => m.stopNow co r new)
    match m.cueOf co r 6 with
    | some (_, q, _) => if opnd (q.bytes.getD []) 0x10 1 = 0 ∧ stopBad (q.bytes.getD []) = false then m else m'
    | none => m)

/-! WAIT (R290). -/

def Mod.waitGo (m : Mod) (c r : Nat) (new : Bool) (b : List Byte) : Mod :=
  let k := opnd b 0x10 1
  let d := (m.get (cmdHead c k) + 2 ^ 32 - opnd b 0x14 4) % 2 ^ 32
  if new && (decide (k = r) || !m.isSet (cmdEn c k)) then m.doneCue c r 0x107 0
  else if 1 ≤ d ∧ d < 2 ^ 31 then m.doneCue c r 0 0
  else if !m.isSet (cmdEn c k) && (m.ring c k).cur.isNone then m.doneCue c r 0x107 0
  else m

/-- WAIT (R290). -/
def execWait (co : Fin 16) (r : Fin 64) (s : State) : Host.Outcome State Fault Refusal :=
  onMod s (fun m => m.cueRow co r 7 (fun b => cueBad b [(0, 1), (4, 4)] || decide (63 < opnd b 0x10 1)) noAddr
    (fun new b m => m.waitGo co r new b))

/-! Ends of a run. -/

/-- JOB_END (R29, R150, R174, R300, R301, R371): the last job-end signal, or the writes of a job that an interval ends. -/
def execJobEnd (co : Fin 16) (s : State) : Host.Outcome State Fault Refusal :=
  onMod s (fun m =>
    if m.endsAtInterval co = true then m.intervalEnd co
    else if m.coState co = stRunning ∧ (m.co co).reset.isNone = true ∧ m.allEnded co = true ∧ m.isSet (esStaging co) = false then
      m.boundary co true
    else m)

/-- TIMEOUT_S of the run's cue (Table 12-3). -/
def Mod.runLimit (m : Mod) (c : Nat) : Nat :=
  match (m.co c).job with
  | some j =>
    match (m.ring c j.ring).cur with
    | some q => opnd (q.bytes.getD []) 0x12 2
    | none => 0
  | none => 0

/-- RUN_TIMEOUT (R300, R371): not while the job is held or in staging, nor with no limit. -/
def execRunTimeout (co : Fin 16) (s : State) : Host.Outcome State Fault Refusal :=
  onMod s (fun m =>
    if m.coState co = stRunning ∧ m.isSet (esStaging co) = false ∧ m.runLimit co ≠ 0 then m.stopJob co 0x306 0 false else m)

/-- MSI_X_MESSAGE (R288). -/
def execMsiXMessage (co : Fin 16) (ms : MsiSrc) (timeUp : Bool) (s : State) : Host.Outcome State Fault Refusal :=
  onMod s (fun m =>
    match ms with
    | .events => m.eventMessage co
    | .ring r => m.ringMessage co r timeUp)

/-! The ring registers (R284, R285, R303). -/

/-- Whether a call-board span leaves an enabled ring's word outside it (R285). -/
def Mod.spanBreaks (m : Mod) (c span : Nat) : Bool :=
  allRings.any (fun r => (m.isSet (cmdEn c r) || m.isSet (cplEn c r)) && decide (span < r / 4))

/-- A write that the ring unit discards (R285, R303). -/
def Mod.cfgLost (m : Mod) (c : Nat) : Mod := m.event c evCfgLost

/-- CB_ADDR's write (Table 12-13). -/
def Mod.cbAddrWrite (m : Mod) (c : Nat) (v : Word) : Mod := if m.isSet (cbEn c) then m.cfgLost c else m.plainWrite (cbAddr c) v

/-- CB_CTRL's write (R284, R285). -/
def Mod.cbCtrl (m : Mod) (c : Nat) (v : Word) : Mod :=
  if m.spanBreaks c (bits v 3 0) then m.cfgLost c
  else
    let m' := m.plainWrite (ringBase c + 8) v
    if m.isSet (cbEn c) && !bit v 31 then m'.pollOff c else m'

/-- CB_CTRL_WRITE (R284, R285). -/
def execCbCtrlWrite (co : Fin 16) (src : WSrc) (v : Word) (s : State) : Host.Outcome State Fault Refusal :=
  onRing s co src (fun m => m.cbCtrl co v)

/-- A command ring's base or configuration written (R285, R286, R307). -/
def Mod.cmdWrite (m : Mod) (c r : Nat) (base : Bool) (v : Word) : Mod :=
  let o := cmdOff c r
  if base then (if m.isSet (cmdEn c r) then m.cfgLost c else m.plainWrite o v)
  else if m.isSet (cmdEn c r) then
    if bit v 31 then m.cfgLost c else (m.plainWrite (o + 8) v).ringOff c r
  else if !bit v 31 then m.plainWrite (o + 8) v
  else if !m.isSet (ctReady c) || decide (m.get (cbSpan c) < r / 4) || !m.isSet (cplEn c (bits v 29 24)) then m.cfgLost c
  else ((m.plainWrite (o + 8) v).put (cmdHead c r) 0).setRing c r { m.ring c r with fetched := 0, reads := [], cues := [] }

/-- A completion ring's base or configuration written (R285, R307). The ring unit takes its HEAD as 0 until a poll has read its word
(DESIGN CHOICE, log entry 48). -/
def Mod.cplWrite (m : Mod) (c k : Nat) (base : Bool) (v : Word) : Mod :=
  let o := cplOff c k
  let named := allRings.any (fun r => m.isSet (cmdEn c r) && decide (m.get (cmdCpl c r) = k))
  if base then (if m.isSet (cplEn c k) then m.cfgLost c else m.plainWrite o v)
  else if m.isSet (cplEn c k) then
    if bit v 31 || named || m.cplBusy c k then m.cfgLost c else m.plainWrite (o + 8) v
  else if !bit v 31 then m.plainWrite (o + 8) v
  else if !m.isSet (ctReady c) || decide (m.get (cbSpan c) < k / 4) then m.cfgLost c
  else ((m.plainWrite (o + 8) v).put (cplTail c k) 0).setCpl c k .zero

/-- RING_CONFIG_WRITE (R285). -/
def execRingConfigWrite (co : Fin 16) (r : Fin 64) (cpl : Bool) (base : Bool) (src : WSrc) (v : Word) (s : State) :
    Host.Outcome State Fault Refusal :=
  onRing s co src (fun m => if cpl then m.cplWrite co r base v else m.cmdWrite co r base v)

/-- A host-window segment's registers written (R9, R303). -/
def Mod.hwinWrite (m : Mod) (c n : Nat) (addr : Bool) (v : Word) : Mod :=
  if m.isSet (hwinEn c n) && m.hasJob c then m.cfgLost c
  else if addr then m.plainWrite (hwinOff c n) v
  else if bit v 63 && decide (bits v 27 0 = 0) then m.cfgLost c
  else m.plainWrite (hwinOff c n + 8) v

/-- HWIN_CFG_WRITE (R303). -/
def execHwinCfgWrite (co : Fin 16) (n : Fin 64) (addr : Bool) (src : WSrc) (v : Word) (s : State) : Host.Outcome State Fault Refusal :=
  onRing s co src (fun m => m.hwinWrite co n addr v)

end Sys2Proof.Machine
end

