-- ==== Sys2Proof/Machine/ShedinCmds.lean ====
section
/-! DEFINITION. The commands of the optical ports, Shedin and the chorus engines (11). -/

namespace Sys2Proof.Machine

/-- LINK_FRAME_RECEIVE (R245, R246). -/
def execLinkFrameReceive (p : Fin 48) (fr : Frame) (s : State) : Host.Outcome State Fault Refusal :=
  onPort s p (fun m => m.frameIn p fr)

/-- LINK_RETRY (R244, R245): the far side asks for a retry from a LINK_SEQ. -/
def execLinkRetry (p : Fin 48) (sq : BitVec 10) (s : State) : Host.Outcome State Fault Refusal :=
  onPort s p (fun m => m.linkRetry p sq.toNat)

/-- LANE_LOSS (R243). -/
def execLaneLoss (p : Fin 48) (lane : Fin 17) (s : State) : Host.Outcome State Fault Refusal :=
  onPort s p (fun m => m.laneLost p lane)

/-- LOSS_OF_SIGNAL (R244, R247). -/
def execLossOfSignal (p : Fin 48) (s : State) : Host.Outcome State Fault Refusal :=
  onPort s p (fun m => if m.get (portState p) = 2 ∨ m.get (portState p) = 3 ∨ m.get (portState p) = 4 then m.portDown p 1 else m)

/-- PORT_RETRAIN (R244): a port that is down, and not failed, trains while PORT_EN is 1; not in ghost light, which only a chip reset leaves
(R329, R404). -/
def execPortRetrain (p : Fin 48) (s : State) : Host.Outcome State Fault Refusal :=
  onPort s p (fun m => if m.ghost = false ∧ m.get (portState p) = 1 ∧ m.isSet (portEn p) = true then m.put (portState p) 2 else m)

/-- PORT_CTRL's write: 0 takes a port down (R244). -/
def Mod.portCtrl (m : Mod) (p : Nat) (v : Word) : Mod :=
  let m := m.put (portEn p) (bits v 0 0)
  let st := m.get (portState p)
  if bits v 0 0 = 0 ∧ 2 ≤ st ∧ st ≤ 4 then m.portDown p 1 else m

/-- PORT_EN_WRITE (R244, R247, R439). -/
def execPortEnWrite (p : Fin 48) (v : Word32) (s : State) : Host.Outcome State Fault Refusal :=
  onPort s p (fun m => if m.pfAll then m.portCtrl p (v.setWidth 64) else m)

/-- PORT_TRAINING_DONE (R243, R244). -/
def execPortTrainingDone (p : Fin 48) (x : Training) (s : State) : Host.Outcome State Fault Refusal :=
  onPort s p (fun m => m.trainDone p x.ok x.bad.toNat)

/-- SHEDIN_PACKET_ARRIVAL (R248 to R257). -/
def execShedinPacketArrival (p : Fin 48) (s : State) : Host.Outcome State Fault Refusal := onPort s p (fun m => m.arrival p)

/-- FLOW_ACKNOWLEDGEMENT (R251). -/
def execFlowAcknowledgement (dev : BitVec 12) (tc : Bool) (s : State) : Host.Outcome State Fault Refusal :=
  onMod s (fun m => m.flowTell dev.toNat (ofBool tc))

/-- RESIDENCE_LIMIT (R254): of a packet on the mesh the port says nothing. -/
def execResidenceLimit (p : Fin 48) (at_ : ResAt) (i : Nat) (s : State) : Host.Outcome State Fault Refusal :=
  match at_ with
  | .mesh o => onMod s (fun m => m.residenceMesh o i)
  | _ => onPort s p (fun m => m.residence p at_ i)

/-- REQUEST_TIMEOUT (R255). -/
def execRequestTimeout (tag : BitVec 18) (s : State) : Host.Outcome State Fault Refusal :=
  onMod s (fun m => m.tagStatus tag.toNat 2)

/-- INJECTION_QUIET_END (R252): 33 ms after the links first came up. -/
def execInjectionQuietEnd (s : State) : Host.Outcome State Fault Refusal :=
  onMod s (fun m => if m.linked then { m with quiet := false }.allFlowsGo.tagGo else m)

/-- ADAPTIVE_LOAD_REPORT (R257). -/
def execAdaptiveLoadReport (p : Fin 48) (load : BitVec 3) (s : State) : Host.Outcome State Fault Refusal :=
  onPort s p (fun m => m.put (portLoad p) load.toNat)

/-- ROUTE_TABLE_WRITE (R256, R259). -/
def execRouteTableWrite (tb : Bool) (dev : BitVec 12) (v : Word) (s : State) : Host.Outcome State Fault Refusal :=
  onPf s (fun m => m.routeWrite tb dev.toNat v)

/-- FLIP (R260): a SHEDIN_CTRL write with FLIP = 1. -/
def execFlip (v : Word32) (s : State) : Host.Outcome State Fault Refusal := onPf s (fun m => m.shedinCtrl (v.setWidth 64))

/-- INJ_EN_WRITE (R26, R277): a SHEDIN_CTRL write. -/
def execInjEnWrite (v : Word32) (s : State) : Host.Outcome State Fault Refusal := onPf s (fun m => m.shedinCtrl (v.setWidth 64))

/-- DRAIN_RETIRE (R261). -/
def execDrainRetire (s : State) : Host.Outcome State Fault Refusal := onMod s Mod.retire

/-- BOUNCE_REINJECT (R262). -/
def execBounceReinject (s : State) : Host.Outcome State Fault Refusal := onMod s Mod.reinject

/-- LEDGER_ADDITION (R237, R265). -/
def execLedgerAddition (co : Fin 16) (l : BitVec 12) (s : State) : Host.Outcome State Fault Refusal :=
  onMod s (fun m => m.ledgerAdd co l.toNat)

/-- GROUP_DESCRIPTOR_START (R267, R268, R271). -/
def execGroupDescriptorStart (co : Fin 16) (s : State) : Host.Outcome State Fault Refusal := onMod s (fun m => m.descStart co)

/-- MULTICAST_CHUNK (R268). -/
def execMulticastChunk (g : BitVec 10) (k : Nat) (s : State) : Host.Outcome State Fault Refusal :=
  onMod s (fun m => m.multicastChunk g.toNat k)

/-- CHORUS_CHUNK (R269 to R272). -/
def execChorusChunk (g : BitVec 10) (k : Nat) (s : State) : Host.Outcome State Fault Refusal :=
  onMod s (fun m => m.chorusChunk g.toNat k)

/-- ROUND_ABANDON (R272). -/
def execRoundAbandon (g : BitVec 10) (s : State) : Host.Outcome State Fault Refusal := onMod s (fun m => m.roundAbandon g.toNat)

/-- TAG_QUARANTINE_END (R402): a tag that a reset abandoned is free again. -/
def execTagQuarantineEnd (tag : BitVec 18) (s : State) : Host.Outcome State Fault Refusal :=
  onMod s (fun m =>
    match m.tag tag.toNat with
    | some u => if u.dead then (m.freeTag tag.toNat).tagGo else m
    | none => m)

end Sys2Proof.Machine
end

