-- ==== Sys2Proof/Machine/RegCmds.lean ====
section
/-! DEFINITION. Register writes by address (R6 to R9, R309, R310, R405, R420, R457 to R459, R462), and the replies of a scalar core's
fabric accesses (R144, R229, R273, R401, R461). -/

namespace Sys2Proof.Machine

/-! The company and ring blocks. -/

/-- A write into a company's block, at an offset in it. What the physical function alone may write is discarded from elsewhere
(R310, R389, R408). -/
def Mod.coRegWrite (m : Mod) (c o : Nat) (v : Word) (src : WSrc) : Mod :=
  let pf := decide (src = .pf)
  match o with
  | 0x100 => m.sceneCtrl c v
  | 0x200 => if pf then m.jobCtrl c v else m
  | 0x208 => if pf then m.holdCtrl c v else m
  | 0x210 => if m.isSet (cdEn c) then m.chorusGo c v else m
  | 0x400 => if pf then m.encCtrlGo c v else m
  | 0x410 => m.encLenCtrl c v
  | 0x500 => m.coResetCtrl c v src
  | 0x800 => if pf then m.defCtrl c v else m
  | 0x808 => if pf then m.shareCtrl c v else m
  | _ => m.plainWrite (coBase c + o) v

/-- A write into a company's ring block. -/
def Mod.ringRegWrite (m : Mod) (c o : Nat) (v : Word) : Mod :=
  if o = 0 then m.cbAddrWrite c v
  else if o = 8 then m.cbCtrl c v
  else if 0x400 ≤ o ∧ o < 0x800 then m.cmdWrite c ((o - 0x400) / 16) (decide (o % 16 = 0)) v
  else if 0x800 ≤ o ∧ o < 0xC00 then m.cplWrite c ((o - 0x800) / 16) (decide (o % 16 = 0)) v
  else if 0xC00 ≤ o ∧ o < 0x1000 then m.hwinWrite c ((o - 0xC00) / 16) (decide (o % 16 = 0)) v
  else m.plainWrite (ringBase c + o) v

/-! The physical function's other blocks. -/

/-- HEALTH_CTRL's write: the record takes the requests (R357, R367). -/
def Mod.healthCtrl (m : Mod) (v : Word) : Mod :=
  let h := m.health
  ({ m with health := { h with forceFull := h.forceFull || bit v 1, retest := h.retest || bit v 2 } }).plainWrite 0x1108 v

def Mod.devWrite (m : Mod) (off : Nat) (v : Word) : Mod :=
  match off with
  | 0x1008 => m.devNumCtrl v
  | 0x1108 => m.healthCtrl v
  | 0x1200 => m.resetCtrl v
  | 0x1204 => m
  | 0x10010 => m.freqCtrl v
  | 0x200008 => m.stratCtrl v
  | 0x400000 => m.counted (m.plainWrite off v)
  | _ => m.plainWrite off v

/-- The Shedin block: a group entry that a loaded production holds is read only (R266). -/
def Mod.shedinWrite (m : Mod) (o : Nat) (v : Word) : Mod :=
  if o = 0 then m.shedinCtrl v
  else if 0x300 ≤ o ∧ o < 0x3C0 then (if m.portFitted ((o - 0x300) / 4) then m.portCtrl ((o - 0x300) / 4) v else m)
  else if 0x10000 ≤ o ∧ o < 0x20000 then m.routeWrite (decide (0x18000 ≤ o)) (o % 0x8000 / 8) v
  else if 0x20000 ≤ o ∧ o < 0x24000 then
    if allCos.any (fun c => shas (m.heldGroups c) ((o - 0x20000) / 16)) then m else m.plainWrite (shBase + o) v
  else m.plainWrite (shBase + o) v

/-- The counters block (R420 to R427). -/
def Mod.counterWrite (m : Mod) (o : Nat) (v : Word) : Mod :=
  if o < 0x100 ∧ o % 16 = 0 then m.snapCtrl (o / 16) v
  else if 0x1000 ≤ o ∧ o < 0x1800 then m.cntSel ((o - 0x1000) / 0x80) (o % 0x80 / 8) v
  else if 0x3000 ≤ o ∧ o < 0x3800 then
    let n : Fin 64 := Fin.ofNat 64 ((o - 0x3000) / 0x20)
    if o % 0x20 = 0 then m.wmSel n v else if o % 0x20 = 0x18 then m.noticeClear (.wm n) v else m
  else if 0x40000 ≤ o ∧ o < 0x40000 + 1152 * 16 then
    let k := (o - 0x40000) / 16
    if o % 16 = 8 then m.noticeClear (.hot (Fin.ofNat 72 (k / 16)) (Fin.ofNat 16 k)) v else m
  else m.plainWrite (cntBase + o) v

/-- A field's block; a fused-off field's discards every write (R458). -/
def Mod.fieldWrite (m : Mod) (f o : Nat) (v : Word) : Mod :=
  if !m.present f then m
  else
    match o with
    | 0x480 => m.engineCtrl f v
    | 0x490 => m.traceWrite f v
    | _ => m.plainWrite (fieldBase f + o) v

/-- A write to a field block in ghost light waits for the exit (R405); one to the power-control registers takes effect at once as well
(R17). -/
def Mod.fieldLate (m : Mod) (off : Nat) (v : Word) : Mod :=
  let o := off % 0x10000
  (if o = 0x440 ∨ o = 0x444 then m.fieldWrite ((off - 0x1000000) / 0x10000) o v else m).writeLater off v

/-- A write through BAR0 of the physical function, by block (Table 22-5); ghost light takes rings, Shedin and field blocks out of
service (R405). -/
def Mod.pfWrite (m : Mod) (off : Nat) (v : Word) : Mod :=
  if off < 0x30000 then m.devWrite off v
  else if off < 0x40000 then m.coRegWrite ((off - 0x30000) / 0x1000) (off % 0x1000) v .pf
  else if off < 0x50000 then (if m.ghost then m else m.ringRegWrite ((off - 0x40000) / 0x1000) (off % 0x1000) v)
  else if 0x100000 ≤ off ∧ off < 0x200000 then (if m.ghost then m else m.shedinWrite (off - 0x100000) v)
  else if 0x300000 ≤ off ∧ off < 0x380000 then m.counterWrite (off - 0x300000) v
  else if 0x1000000 ≤ off then (if m.ghost then m.fieldLate off v else m.fieldWrite ((off - 0x1000000) / 0x10000) (off % 0x10000) v)
  else m.devWrite off v

/-- Whether a host access has its register's own width and alignment (R7, R8). -/
def widthOk (off width : Nat) : Bool :=
  match regAt off with
  | some d => decide (8 * width = d.width ∧ off % width = 0)
  | none => false

/-! The window of a virtual function and space 0x2. -/

/-- The physical-function offset that a window offset reaches (Table 13-1); the identity block is read only. -/
def windowOff (c o : Nat) : Option Nat :=
  if 0x1000 ≤ o ∧ o < 0x2000 then some (coBase c + (o - 0x1000))
  else if 0x2000 ≤ o ∧ o < 0x3000 then some (ringBase c + (o - 0x2000))
  else if 0x8000 ≤ o ∧ o < 0x10000 then some (ledgerOff c 0 + (o - 0x8000))
  else none

/-- Whether an offset lies in a company's own blocks (Table 01-10, R264). -/
def ownBlock (c off : Nat) : Bool :=
  decide (c < 16 ∧ ((coBase c ≤ off ∧ off < coBase c + 0x1000) ∨ (ringBase c ≤ off ∧ off < ringBase c + 0x1000) ∨
    (ledgerOff c 0 ≤ off ∧ off < ledgerOff c 0 + 0x8000)))

/-- A write of one register of a company's own blocks. -/
def Mod.ownWrite (m : Mod) (c off : Nat) (v : Word) (src : WSrc) : Mod :=
  if !ownBlock c off || (regAt off).isNone then m
  else if off < 0x40000 then m.coRegWrite c (off - coBase c) v src
  else if off < 0x50000 then m.ringRegWrite c (off - ringBase c) v
  else m.plainWrite off v

/-- Whether the 8 bytes at an offset are one 64-bit register. -/
def isWide (off : Nat) : Bool :=
  match regAt off with
  | some d => decide (d.width = 64)
  | none => false

/-- An engine's 8-byte write: one register, or a 32-bit register in each half (R462). -/
def Mod.engineWrite (m : Mod) (c off : Nat) (v : Word) : Mod :=
  if isWide off then m.ownWrite c off v .engine
  else (m.ownWrite c off (v &&& 0xFFFFFFFF#64) .engine).ownWrite c (off + 4) (v >>> 32) .engine

/-- What an engine reads of one register: its own blocks and the identity block (Table 01-10). -/
def Mod.ownRead (m : Mod) (c off : Nat) : Word :=
  if ownBlock c off || decide (off < 0x1000) then
    match regAt off with
    | some d => readMask d (m.reg off)
    | none => 0
  else 0

/-- An engine's 8-byte read (R462). -/
def Mod.engineRead (m : Mod) (c off : Nat) : Word :=
  if isWide off then m.ownRead c off else (m.ownRead c off &&& 0xFFFFFFFF#64) ||| (m.ownRead c (off + 4) <<< 32)

/-- A write of a function's MSI-X table (R280, log entry 47): a vector's message address, data or vector control, 4 or 8 bytes of them.
A vector unmasked while its message is pending sends it (R288). -/
def Mod.msixWrite (m : Mod) (hp fn off width : Nat) (v : Word) : Mod :=
  if 65 * 16 ≤ off ∨ (width ≠ 4 ∧ width ≠ 8) ∨ off % width ≠ 0 then m
  else
    let k := msixKey hp fn (off / 16)
    let lo := 8 * (off % 8)
    let put := fun (w : Word) => setBits w (lo + 8 * width - 1) lo v.toNat
    if off % 16 < 8 then { m with msixAddr := mset 0 m.msixAddr k (put (mget 0 m.msixAddr k) &&& 0xFFFFFFFFFFFFFFFC#64) }
    else
      let m := { m with msixCtl := mset msixReset m.msixCtl k (put (m.msixWord k) &&& 0x1FFFFFFFF#64) }
      if !m.vectorMasked k && shas m.msixPend k then { m with msixPend := sdel m.msixPend k }.sendVector hp fn (off / 16) else m

/-- A register write by its path. BAR2 is the PCIe controller's own. -/
def Mod.regWrite (m : Mod) (path : WPath) (off width : Nat) (v : Word) : Mod :=
  match path with
  | .bar2 hp fn => if m.bar2Up hp fn then m.msixWrite hp fn off width v else m
  | .pf => if m.prompterUp && widthOk off width then m.pfWrite off v else m
  | .vf hp fn =>
    match if m.prompterUp && m.vfUp hp fn then m.vfCo hp fn else none with
    | some c =>
      match windowOff c off with
      | some o => if widthOk o width then m.ownWrite c o v .vf else m
      | none => m
    | none => m
  | .engine c => if m.coOpen c .engine && decide (width = 8 ∧ off % 8 = 0) then m.engineWrite c off v else m

/-- REGISTER_WRITE (R6 to R9, R309, R310, R405, R420, R457 to R459, R462). -/
def execRegisterWrite (path : WPath) (off : Nat) (width : Nat) (v : Word) (s : State) : Host.Outcome State Fault Refusal :=
  onMod s (fun m => m.regWrite path off width v)

/-! Host reads (R1, R7 to R9, R18, R308, R309, R398, R405, R452, R457, R458). No row of the table reads: a read changes no state. -/

/-- Bits that the fuses set where a register's table gives a full part's: STATE of a fused-off port, LAYERS of a field's stratum, and
STATE of one that is fused off (R1, R2, R360, Tables 08-10 and 11-13). GEN_STAT of a company that is not enabled reads its reset value
(R459), whatever the generation that the device keeps for it (R399). -/
def Mod.fusedView (m : Mod) (off : Nat) (w : Word) : Word :=
  let p := (off - (shBase + 0x100)) / 8
  let f := (off - 0x200100) / 8
  if shBase + 0x100 ≤ off ∧ off < shBase + 0x280 ∧ m.portFitted p = false then setBits w 30 28 0
  else if 0x30000 ≤ off ∧ off < 0x40000 ∧ off % 0x1000 = 0x508 ∧ m.isSet (cdEn ((off - 0x30000) / 0x1000)) = false then 0
  else if 0x200100 ≤ off ∧ off < 0x200100 + 8 * 72 then setBits w 5 4 (if m.present f then m.layers else 0)
  else w

/-- What a register answers: its fields that can be read, zero for reserved bits and for a field block that is fused off. -/
def Mod.regView (m : Mod) (off : Nat) : Word :=
  if 0x1000000 ≤ off ∧ m.present ((off - 0x1000000) / 0x10000) = false then 0
  else
    match regAt off with
    | some d => m.fusedView off (readMask d (m.reg off))
    | none => 0

/-- A read of BAR0 of the physical function: a register in its own width, either half of a 64-bit one, zero for all else. -/
def Mod.barRead (m : Mod) (off width : Nat) : Word :=
  if widthOk off width then m.regView off
  else if width = 4 ∧ off % 8 = 0 ∧ isWide off = true then m.regView off &&& 0xFFFFFFFF#64
  else if width = 4 ∧ off % 8 = 4 ∧ isWide (off - 4) = true then m.regView (off - 4) >>> 32
  else 0

def allOnes (width : Nat) : Word := BitVec.ofNat 64 (2 ^ (8 * width) - 1)

/-- A read of BAR2: the MSI-X table and the pending bits (R280). -/
def Mod.bar2Read (m : Mod) (hp fn off width : Nat) : Word :=
  if (width ≠ 4 ∧ width ≠ 8) ∨ off % width ≠ 0 then 0
  else
    let w : Word :=
      if off < 65 * 16 then (let k := msixKey hp fn (off / 16); if off % 16 < 8 then mget 0 m.msixAddr k else m.msixWord k)
      else if 0x1000 ≤ off ∧ off < 0x1010 then
        BitVec.ofNat 64 (((List.range 64).map (fun i => ofBool (shas m.msixPend (msixKey hp fn ((off - 0x1000) / 8 * 64 + i)) &&
          decide ((off - 0x1000) / 8 * 64 + i < 65)) * 2 ^ i)).foldl (· + ·) 0)
      else 0
    if width = 8 then w else if off % 8 = 0 then w &&& 0xFFFFFFFF#64 else w >>> 32

/-- What a host read gets; none where the function does not exist on PCIe, or where ghost light has taken the block out of service. -/
def Mod.busRead (m : Mod) (path : WPath) (off width : Nat) : Option Word :=
  match path with
  | .engine c => some (if m.prompterUp then m.engineRead c off else allOnes 8)
  | .pf =>
    if m.prompterUp then
      if m.ghost && decide ((0x40000 ≤ off ∧ off < 0x50000) ∨ (0x100000 ≤ off ∧ off < 0x200000)) then none else some (m.barRead off width)
    else if m.isSet rtRomLoop && decide (off < 0x1000 ∨ (0x1208 ≤ off ∧ off < 0x1210)) then some (m.barRead off width)
    else some (allOnes width)
  | .bar2 hp fn => if m.bar2Up hp fn then some (m.bar2Read hp fn off width) else none
  | .vf hp fn =>
    if !m.vfUp hp fn then none
    else if !m.prompterUp then some (allOnes width)
    else if off < 0x1000 then some (m.barRead off width)
    else
      match m.vfCo hp fn with
      | some c => (match windowOff c off with | some o => some (m.barRead o width) | none => some 0)
      | none => some 0

/-! Resets that end (R391 to R396). -/

/-- The writes to field blocks that ghost light kept, at its exit; GO of ENGINE_RESET is discarded (R17, R405). -/
def Mod.lateWrites (m : Mod) : Mod :=
  let l := m.late
  { m with late := [] }.each l (fun m e =>
    let o := (e.1 - 0x1000000) % 0x10000
    m.fieldWrite ((e.1 - 0x1000000) / 0x10000) o (if o = 0x480 then setBits e.2 31 31 0 else e.2))

/-- A chip reset's end, with the exit from ghost light. -/
def Mod.chipEnd (m : Mod) : Mod := let n := m.chipDone; if m.ghost && !n.ghost then n.lateWrites else n

/-- CHIP_RESET_COMPLETE (R396, R405). -/
def execChipResetComplete (s : State) : Host.Outcome State Fault Refusal := onMod s Mod.chipEnd

/-- RESET_COMPLETE (R391 to R395). -/
def execResetComplete (sc : ResetScope) (ok : Bool) (s : State) : Host.Outcome State Fault Refusal :=
  match sc with
  | .context c => onMod s (fun m => if ok then m.contextDone c else m)
  | .engine f => onField s f (fun m => m.engineDone f ok)
  | .partition c => onMod s (fun m => if ok then m.partitionDone c else m)
  | .chip => onMod s (fun m => if ok then m.chipEnd else m)

/-! FABRIC_REPLY. -/

/-- What an access to space 0x2 gives: while Prompter is being reset, all ones and nothing written (R461). -/
def Mod.setupAccess (m : Mod) (c : Nat) (a : FabAcc) : Mod × Word :=
  let off := faOff a.addr
  match a.op with
  | .store v => (if m.prompterUp then m.engineWrite c off v else m, 0)
  | _ => (m, if m.prompterUp then m.engineRead c off else 0xFFFFFFFFFFFFFFFF#64)

/-- An outstanding access of a scalar core that a number names. -/
def Mod.accOf (m : Mod) (f l id : Nat) : Option FabAcc := (m.cell f l).sc.outst.find? (fun a => decide (a.id = id))

/-- A reply that reached the core (R144, R273, R401). -/
def Mod.scalarReply (m : Mod) (f l id : Nat) (r : Reply) : Mod :=
  let m := m.modCell f l (fun c => { c with replies := dropReply c.replies r })
  match m.staleReply f l false r.gens with
  | 1 => m.countStale (m.coOf f)
  | 2 => m.count 3 5 f l 0 1
  | _ =>
    let a := m.accOf f l id
    let m := m.runCell f l (opScalar 0x1C) (fabReplyIn id r)
    match a with
    | some x => if r.status = 2 then m.holdFor f l x.addr else m
    | none => m

/-- An access to space 0x2 made and completed (R461, R462). -/
def Mod.setupReply (m : Mod) (f l : Nat) (a : FabAcc) : Mod :=
  let d := m.setupAccess ((m.coOf f).getD 16) a
  d.1.runCell f l (opScalar 0x1C) (fabReplyIn a.id ⟨.scalar f l a.id, 0, toLe d.2.toNat 8, [], m.gens f l false⟩)

/-- Whether an earlier access of the core to the same address is still out (Table 10-1). -/
def Mod.earlierOut (m : Mod) (f l : Nat) (a : FabAcc) : Bool :=
  ((m.cell f l).sc.outst.takeWhile (fun b => decide (b.id ≠ a.id))).any (fun b => decide (b.addr = a.addr))

/-- FABRIC_REPLY: the reply that waits at the core, or an access to space 0x2, those to one address in order. -/
def Mod.fabricReply (m : Mod) (f l id : Nat) : Mod :=
  match (m.cell f l).replies.find? (fun r => !isFlyReply r && decide (replyId r = id)) with
  | some r => m.scalarReply f l id r
  | none =>
    match m.accOf f l id with
    | some a => if !a.kept && decide (faSpace a.addr = 2) && !isAtomic a.op && !m.earlierOut f l a then m.setupReply f l a else m
    | none => m

/-- FABRIC_REPLY (R144, R229, R273, R401, R461). -/
def execFabricReply (c : CellRef) (id : Nat) (s : State) : Host.Outcome State Fault Refusal :=
  onField s c.field (fun m => if m.cellRuns c.field c.lcell then m.fabricReply c.field c.lcell id else m)

end Sys2Proof.Machine
end

