-- ==== Sys2Proof/Machine/RigCmds.lean ====
section
/-! DEFINITION. The commands of the rigging (07): departures in owned slots, seams, credits, steering units, samples. -/

namespace Sys2Proof.Machine

/-- The key of an output's credits for a receiving queue. -/
def creditKey (out q : Nat) : Nat := out * 80 + q

/-- A slot of an output that passes without a token, its owner blocked or idle (Table 20-1, R176). -/
def slotIdle (blocked : Bool) (c : Cell) : Cell :=
  let c := c.note (.count 5 (if blocked then 5 else 6) 0 1)
  if blocked then { c with rig := { c.rig with blocked := c.rig.blocked + 1 } } else c

/-- A token sent by an output from a queue, for a queue of the receiving node (R158, R159). -/
def departFrom (out q dst : Nat) (c : Cell) : Cell :=
  let k := creditKey out dst
  let c := (c.takeToken q).note (.count 5 (out + 1) 0 1)
  { c with rig := { c.rig with spent := mset 0 c.rig.spent k (mget 0 c.rig.spent k + 1), sent := c.rig.sent + 1 } }

/-- A token into a node: at once inside a field, into the seam between fields (R158, R161). -/
def tokenIn (seam : Bool) (inp slot dst : Nat) (t : Token) (c : Cell) : Cell :=
  if seam then { c with rig := { c.rig with seam := mset [] c.rig.seam inp (mget [] c.rig.seam inp ++ [(slot / 2, t)]) } }
  else { c with rig := c.rig.put dst t }

/-- A token that a link or seam brings a node; with a word's parity in error it is poisoned and goes on, recorded, and the receiving
cell is marked (R154, Table 17-1); the word is free (log entry 2). -/
def Mod.tokenTo (m : Mod) (f l : Nat) (seam : Bool) (inp slot dst : Nat) (t : Token) : Mod :=
  let n := (m.cell f l).rig.linkBad
  if n = 0 then m.modCell f l (tokenIn seam inp slot dst t)
  else
    let d := m.draw
    let m := d.2.modCell f l (fun c => tokenIn seam inp slot dst { t with bad := true } { c with rig := { c.rig with linkBad := n - 1 } })
    (m.record ⟨3, 3, 1, whereCell m f l 11, opRig 0, 3, m.coOf f, bits d.1 1 0⟩).mark f l 3

/-- The mark of an output that had its slot at a slot count, and whether it sent (R157). -/
def slotMark (slots : Nat) (sent : Bool) : Nat := 2 * (slots + 1) + ofBool sent

/-- What an output does in a slot that a queue owns (R158, R159, R161, R176, R177): 0 nothing, 1 sends for a queue of the receiver, 2 idle
with an empty owner, 3 blocked for credit. In the odd slot of a seam's pair no token begins, and none is counted where the second beat
of one sent in the even slot crosses. -/
def slotDoes (c : Cell) (out q slots : Nat) (odd : Bool) (dst : Option Nat) : Nat :=
  if odd && decide (mget 0 c.rig.last out = 2 * slots + 1) then 0
  else if (c.rig.head q).isNone then 2
  else
    match dst with
    | none => 0
    | some d => if queueDepth ≤ mget 0 c.rig.spent (creditKey out d) then 3 else if odd then 0 else 1

/-- Whether a field has installed a scene that another field of its company has not: it sends no token of it yet (R172). -/
def Mod.installing (m : Mod) (f : Nat) : Bool :=
  match m.coOf f with
  | none => false
  | some c => ((m.co c).change).any (fun g => decide (g.phase = 3) && shas g.done f)

/-- The current slot of an output (R157, R158, R161): its owner's head token goes, or the slot stays idle. -/
def Mod.departure (m : Mod) (f l out : Nat) : Mod :=
  let c := m.cell f l
  let x := m.field f
  if mget 0 c.rig.last out / 2 = x.slots + 1 ∨ m.installing f = true then m
  else
    match c.rig.slotOwner out x.slot, m.neighbour f l out with
    | some q, some (nf, nl) =>
      let seam := decide (nf ≠ f)
      let odd := seam && decide (x.slot % 2 = 1)
      let inp := (out + 2) % 4
      let dst := (m.cell nf nl).rig.slotQueue inp (if odd then x.slot - 1 else x.slot)
      let k := slotDoes c out q x.slots odd dst
      let m := m.modCell f l (fun c => { c with rig := { c.rig with last := mset 0 c.rig.last out (slotMark x.slots (decide (k = 1))) } })
      match k, c.rig.head q, dst with
      | 1, some t, some d => (m.runCell f l (opRig 0) (departFrom out q d)).tokenTo nf nl seam inp x.slot d t
      | 2, _, _ => m.runCell f l (opRig 0) (slotIdle false)
      | 3, _, _ => m.runCell f l (opRig 0) (slotIdle true)
      | _, _, _ => m
    | _, _ => m

/-- A token that comes out of a seam (R161). -/
def seamIn (inp : Nat) (c : Cell) : Cell :=
  match mget [] c.rig.seam inp with
  | [] => c
  | (p, t) :: rest =>
    let g := { c.rig with seam := mset [] c.rig.seam inp rest }
    match g.slotQueue inp (2 * p) with
    | some q => { c with rig := g.put q t }
    | none => { c with rig := g }

/-- A credit that an output regains (R159). -/
def creditBack (out q : Nat) (c : Cell) : Cell :=
  let k := creditKey out q
  if mget 0 c.rig.owed k = 0 then c
  else
    { c with rig := { c.rig with
      owed := mset 0 c.rig.owed k (mget 0 c.rig.owed k - 1), spent := mset 0 c.rig.spent k (mget 0 c.rig.spent k - 1) } }

/-- A node's sample (R176, Table 07-12); its counts start again. -/
def rigSample (mode qsel : Nat) (c : Cell) : Cell :=
  { c with rig := { c.rig with record := c.rig.sample mode qsel, blocked := 0, sent := 0 } }

/-- TOKEN_DEPARTURE (R154, R157 to R161). -/
def execTokenDeparture (c : CellRef) (out : Fin 4) (s : State) : Host.Outcome State Fault Refusal :=
  onField s c.field (fun m => if m.cellRuns c.field c.lcell then m.departure c.field c.lcell out else m)

/-- SEAM_TOKEN_ARRIVAL (R161). -/
def execSeamTokenArrival (c : CellRef) (inp : Fin 4) (s : State) : Host.Outcome State Fault Refusal :=
  onCell s c (opRig 0) (fun _ => seamIn inp)

/-- CREDIT_RETURN (R159). -/
def execCreditReturn (c : CellRef) (out : Fin 4) (q : Fin 80) (s : State) : Host.Outcome State Fault Refusal :=
  onCell s c (opRig 0) (fun _ => creditBack out q)

/-- STEERING_FIRE (R160, R162 to R164). -/
def execSteeringFire (c : CellRef) (su : Fin 8) (s : State) : Host.Outcome State Fault Refusal :=
  onCell s c (opRig 0) (fun _ => steerStep su)

/-- RIG_SAMPLE_RECORD (R176): the node's record of the period, where EN is 1. -/
def execRigSampleRecord (c : CellRef) (s : State) : Host.Outcome State Fault Refusal :=
  onField s c.field (fun m =>
    if m.cellRuns c.field c.lcell && m.isSet (rsEn c.field) then
      m.runCell c.field c.lcell (opRig 0) (rigSample (m.get (rsMode c.field)) (m.get (rsQsel c.field)))
    else m)

end Sys2Proof.Machine
end

