-- ==== Sys2Proof/Machine/ScalarCmds.lean ====
section
/-! DEFINITION. The commands of the scalar core (06, Table 06-9) and of cell memory (02): each an instruction at the front of
its core, or an event of the cell. -/

namespace Sys2Proof.Machine

/-- ALU (R142). -/
def execAlu (c : CellRef) (x : XForm) (s : State) :
    Host.Outcome State Fault Refusal :=
  onScalar s c 0x01 (fun _ => aluStep x)

/-- ADDI (R141). -/
def execAddi (c : CellRef) (i : IForm) (s : State) :
    Host.Outcome State Fault Refusal :=
  onScalar s c 0x02 (fun _ => immStep 0x02 i false (· + i.imm.signExtend 64))

/-- ANDI (R141). -/
def execAndi (c : CellRef) (i : IForm) (s : State) :
    Host.Outcome State Fault Refusal :=
  onScalar s c 0x03 (fun _ => immStep 0x03 i false (· &&& i.imm.setWidth 64))

/-- ORI (R141). -/
def execOri (c : CellRef) (i : IForm) (s : State) :
    Host.Outcome State Fault Refusal :=
  onScalar s c 0x04 (fun _ => immStep 0x04 i false (· ||| i.imm.setWidth 64))

/-- XORI (R141). -/
def execXori (c : CellRef) (i : IForm) (s : State) :
    Host.Outcome State Fault Refusal :=
  onScalar s c 0x05 (fun _ => immStep 0x05 i false (· ^^^ i.imm.setWidth 64))

/-- SHI (R141). -/
def execShi (c : CellRef) (i : IForm) (s : State) :
    Host.Outcome State Fault Refusal :=
  onScalar s c 0x06 (fun _ => immStep 0x06 i (shiBad i.imm) (shiFn i.imm))

/-- LUI (R141). -/
def execLui (c : CellRef) (i : IForm) (s : State) :
    Host.Outcome State Fault Refusal :=
  onScalar s c 0x07 (fun _ => immStep 0x07 i (decide (i.ra ≠ 0)) (fun _ => sext 32 (i.imm.toNat * 65536)))

/-- SLTI (R141). -/
def execSlti (c : CellRef) (i : IForm) (s : State) :
    Host.Outcome State Fault Refusal :=
  onScalar s c 0x08 (fun _ => immStep 0x08 i false (fun a => if a.slt (i.imm.signExtend 64) then 1 else 0))

/-- LB (R143). -/
def execLb (c : CellRef) (i : IForm) (s : State) :
    Host.Outcome State Fault Refusal :=
  onScalar s c 0x10 (fun _ => loadStep 0x10 1 true i)

/-- LBU (R143). -/
def execLbu (c : CellRef) (i : IForm) (s : State) :
    Host.Outcome State Fault Refusal :=
  onScalar s c 0x11 (fun _ => loadStep 0x11 1 false i)

/-- LH (R143). -/
def execLh (c : CellRef) (i : IForm) (s : State) :
    Host.Outcome State Fault Refusal :=
  onScalar s c 0x12 (fun _ => loadStep 0x12 2 true i)

/-- LHU (R143). -/
def execLhu (c : CellRef) (i : IForm) (s : State) :
    Host.Outcome State Fault Refusal :=
  onScalar s c 0x13 (fun _ => loadStep 0x13 2 false i)

/-- LW (R143). -/
def execLw (c : CellRef) (i : IForm) (s : State) :
    Host.Outcome State Fault Refusal :=
  onScalar s c 0x14 (fun _ => loadStep 0x14 4 true i)

/-- LWU (R143). -/
def execLwu (c : CellRef) (i : IForm) (s : State) :
    Host.Outcome State Fault Refusal :=
  onScalar s c 0x15 (fun _ => loadStep 0x15 4 false i)

/-- LD (R143). -/
def execLd (c : CellRef) (i : IForm) (s : State) :
    Host.Outcome State Fault Refusal :=
  onScalar s c 0x16 (fun _ => loadStep 0x16 8 false i)

/-- SB (R143). -/
def execSb (c : CellRef) (i : IForm) (s : State) :
    Host.Outcome State Fault Refusal :=
  onScalar s c 0x18 (fun _ => storeStep 0x18 1 i)

/-- SH (R143). -/
def execSh (c : CellRef) (i : IForm) (s : State) :
    Host.Outcome State Fault Refusal :=
  onScalar s c 0x19 (fun _ => storeStep 0x19 2 i)

/-- SW (R143). -/
def execSw (c : CellRef) (i : IForm) (s : State) :
    Host.Outcome State Fault Refusal :=
  onScalar s c 0x1A (fun _ => storeStep 0x1A 4 i)

/-- SD (R143). -/
def execSd (c : CellRef) (i : IForm) (s : State) :
    Host.Outcome State Fault Refusal :=
  onScalar s c 0x1B (fun _ => storeStep 0x1B 8 i)

/-- FLD (R144). -/
def execFld (c : CellRef) (x : XForm) (s : State) :
    Host.Outcome State Fault Refusal :=
  onScalar s c 0x1C (fun _ => fldStep x)

/-- FST (R144). -/
def execFst (c : CellRef) (x : XForm) (s : State) :
    Host.Outcome State Fault Refusal :=
  onScalar s c 0x1D (fun _ => fstStep x)

/-- FATOM (R144). -/
def execFatom (c : CellRef) (x : XForm) (s : State) :
    Host.Outcome State Fault Refusal :=
  onScalar s c 0x1E (fun _ => fatomStep x)

/-- FENCE of kind 0 (R230, R231). -/
def execFenceRelease (c : CellRef) (r : FenceForm) (s : State) :
    Host.Outcome State Fault Refusal :=
  onScalar s c 0x20 (fun _ => fenceStep 0 r)

/-- FENCE of kind 1 (R230, R231). -/
def execFenceAcquire (c : CellRef) (r : FenceForm) (s : State) :
    Host.Outcome State Fault Refusal :=
  onScalar s c 0x20 (fun _ => fenceStep 1 r)

/-- FENCE of kind 2 (R230, R231). -/
def execFullFence (c : CellRef) (r : FenceForm) (s : State) :
    Host.Outcome State Fault Refusal :=
  onScalar s c 0x20 (fun _ => fenceStep 2 r)

/-- BEQ (R141). -/
def execBeq (c : CellRef) (b : BForm) (s : State) :
    Host.Outcome State Fault Refusal :=
  onScalar s c 0x28 (fun _ => branchStep 0 b)

/-- BNE (R141). -/
def execBne (c : CellRef) (b : BForm) (s : State) :
    Host.Outcome State Fault Refusal :=
  onScalar s c 0x29 (fun _ => branchStep 1 b)

/-- BLT (R141). -/
def execBlt (c : CellRef) (b : BForm) (s : State) :
    Host.Outcome State Fault Refusal :=
  onScalar s c 0x2A (fun _ => branchStep 2 b)

/-- BGE (R141). -/
def execBge (c : CellRef) (b : BForm) (s : State) :
    Host.Outcome State Fault Refusal :=
  onScalar s c 0x2B (fun _ => branchStep 3 b)

/-- BLTU (R141). -/
def execBltu (c : CellRef) (b : BForm) (s : State) :
    Host.Outcome State Fault Refusal :=
  onScalar s c 0x2C (fun _ => branchStep 4 b)

/-- BGEU (R141). -/
def execBgeu (c : CellRef) (b : BForm) (s : State) :
    Host.Outcome State Fault Refusal :=
  onScalar s c 0x2D (fun _ => branchStep 5 b)

/-- JAL (R141). -/
def execJal (c : CellRef) (off : BitVec 26) (s : State) :
    Host.Outcome State Fault Refusal :=
  onScalar s c 0x2E (fun _ => jalStep off)

/-- JALR (R141). -/
def execJalr (c : CellRef) (i : IForm) (s : State) :
    Host.Outcome State Fault Refusal :=
  onScalar s c 0x2F (fun _ => jalrStep i)

/-- MCPUSH (R145). -/
def execMcpush (c : CellRef) (x : XForm) (s : State) :
    Host.Outcome State Fault Refusal :=
  onScalar s c 0x30 (fun _ => mcpushStep x)

/-- MCRD (R145). -/
def execMcrd (c : CellRef) (x : XForm) (s : State) :
    Host.Outcome State Fault Refusal :=
  onScalar s c 0x31 (fun _ => mcrdStep x)

/-- MCCLR (R145). -/
def execMcclr (c : CellRef) (x : XForm) (s : State) :
    Host.Outcome State Fault Refusal :=
  onScalar s c 0x32 (fun _ => mcclrStep x)

/-- MCWAIT (R145). -/
def execMcwait (c : CellRef) (x : XForm) (s : State) :
    Host.Outcome State Fault Refusal :=
  onScalar s c 0x33 (fun _ => mcwaitStep x)

/-- VSTART (R146). -/
def execVstart (c : CellRef) (x : XForm) (s : State) :
    Host.Outcome State Fault Refusal :=
  onScalar s c 0x34 (fun _ => vstartStep x)

/-- VSETA (R146). -/
def execVseta (c : CellRef) (x : XForm) (s : State) :
    Host.Outcome State Fault Refusal :=
  onScalar s c 0x35 (fun _ => vsetaStep x)

/-- VRD (R141). -/
def execVrd (c : CellRef) (x : XForm) (s : State) :
    Host.Outcome State Fault Refusal :=
  onScalar s c 0x36 (fun _ => vrdStep x)

/-- VCLR (R146). -/
def execVclr (c : CellRef) (x : XForm) (s : State) :
    Host.Outcome State Fault Refusal :=
  onScalar s c 0x37 (fun _ => vclrStep x)

/-- FLY (R147). -/
def execFly (c : CellRef) (x : XForm) (s : State) :
    Host.Outcome State Fault Refusal :=
  onScalar s c 0x38 (fun e => flyStep e x)

/-- FLYWAIT (R147). -/
def execFlywait (c : CellRef) (x : XForm) (s : State) :
    Host.Outcome State Fault Refusal :=
  onScalar s c 0x39 (fun _ => flywaitStep x)

/-- ASEND (R148). -/
def execAsend (c : CellRef) (x : XForm) (s : State) :
    Host.Outcome State Fault Refusal :=
  onScalar s c 0x3A (fun _ => asendStep x)

/-- ARECV (R148). -/
def execArecv (c : CellRef) (x : XForm) (s : State) :
    Host.Outcome State Fault Refusal :=
  onScalar s c 0x3B (fun _ => arecvStep x)

/-- TIN (R156). -/
def execTin (c : CellRef) (x : XForm) (s : State) :
    Host.Outcome State Fault Refusal :=
  onScalar s c 0x3C (fun _ => tinStep x)

/-- TOUT (R156). -/
def execTout (c : CellRef) (x : XForm) (s : State) :
    Host.Outcome State Fault Refusal :=
  onScalar s c 0x3D (fun _ => toutStep x)

/-- WAITEV (R152). -/
def execWaitev (c : CellRef) (x : XForm) (s : State) :
    Host.Outcome State Fault Refusal :=
  onScalar s c 0x3E (fun _ => waitevStep x)

/-- CSRR (R152), a SYS instruction. -/
def execCsrr (c : CellRef) (y : SysForm) (s : State) :
    Host.Outcome State Fault Refusal :=
  onScalar s c 0x3F (fun e => csrrStep e y)

/-- CSRW (R152), a SYS instruction. -/
def execCsrw (c : CellRef) (y : SysForm) (s : State) :
    Host.Outcome State Fault Refusal :=
  onScalar s c 0x3F (fun _ => csrwStep y)

/-- SCENEACK (R149, R169), a SYS instruction. -/
def execSceneack (c : CellRef) (y : SysForm) (s : State) :
    Host.Outcome State Fault Refusal :=
  onScalar s c 0x3F (fun e => sceneackStep e y)

/-- JEND (R150), a SYS instruction. -/
def execJend (c : CellRef) (y : SysForm) (s : State) :
    Host.Outcome State Fault Refusal :=
  onScalar s c 0x3F (fun _ => jendStep y)

/-- SEEDV (R146, R75), a SYS instruction. -/
def execSeedv (c : CellRef) (y : SysForm) (s : State) :
    Host.Outcome State Fault Refusal :=
  onScalar s c 0x3F (fun _ => seedvStep y)

/-- An entry of a gather buffer flushed by itself (R52); of the delivery port's buffer (R54) likewise. -/
def gatherTimeout (aside : Bool) (i : Nat) (c : Cell) : Cell :=
  if aside then
    match c.asideGather[i]? with
    | none => c
    | some e => { c.flushEntry false e with asideGather := c.asideGather.eraseIdx i }
  else
    match c.sc.gather[i]? with
    | none => c
    | some e => c.flushRow e.unit e.row

/-- A corrected word written back, the i-th that waits (R60). -/
def eccWriteBack (i : Nat) (c : Cell) : Cell :=
  match c.wbacks[i]? with
  | none => c
  | some w => { c with latent := sdel c.latent w, wbacks := sdel c.wbacks w }

/-- A row read by the background scrub (R61): corrected words wait for write-back (R60), uncorrectable ones are recorded
(R59). -/
def scrubRow (unit row : Nat) (c : Cell) : Cell := if row < unitRows unit then c.touch unit row 1 else c

/-- GATHER_TIMEOUT_FLUSH (R52). -/
def execGatherTimeoutFlush (c : CellRef) (aside : Bool) (i : Nat) (s : State) :
    Host.Outcome State Fault Refusal :=
  onCell s c opStage (fun _ => gatherTimeout aside i)

/-- ECC_WRITE_BACK (R60). -/
def execEccWriteBack (c : CellRef) (i : Nat) (s : State) :
    Host.Outcome State Fault Refusal :=
  onCell s c opStage (fun _ => eccWriteBack i)

/-- SCRUB_READ (R61), where SCRUB_EN is 1. -/
def execScrubRead (c : CellRef) (unit : Fin 9) (row : BitVec 12) (s : State) :
    Host.Outcome State Fault Refusal :=
  onField s c.field (fun m =>
    if m.cellRuns c.field c.lcell && m.isSet (cmScrubEn c.field) then
      m.runCell c.field c.lcell opStage (scrubRow unit row.toNat)
    else m)

end Sys2Proof.Machine
end

