-- ==== Sys2Proof/Machine/StratumCmds.lean ====
section
/-! DEFINITION. The commands of the stratum's channels (08). -/

namespace Sys2Proof.Machine

/-- STRATUM_REQUEST (R180, R186 to R191): the channel's queue serves one request; `aged`: how many of the oldest have
waited 1 us. -/
def execStratumRequest (f : Fin 72) (ch : Fin 16) (aged : Nat) (s : State) : Host.Outcome State Fault Refusal :=
  onMod s (fun m => m.stratumRequest f ch aged)

/-- STRATUM_ROW_CLOSE (R180). -/
def execStratumRowClose (f : Fin 72) (ch : Fin 16) (bank : Nat) (s : State) : Host.Outcome State Fault Refusal :=
  onMod s (fun m => m.rowClose f ch bank)

/-- STRATUM_WRITE_BACK (R190): the i-th corrected burst that waits. -/
def execStratumWriteBack (f : Fin 72) (ch : Fin 16) (i : Nat) (s : State) : Host.Outcome State Fault Refusal :=
  onMod s (fun m => m.stratWriteBack f ch i)

/-- STRATUM_SCRUB (R192). -/
def execStratumScrub (f : Fin 72) (ch : Fin 16) (layer : Fin 2) (burst : BitVec 24) (s : State) :
    Host.Outcome State Fault Refusal :=
  onMod s (fun m => m.stratScrub f ch layer burst.toNat)

/-- STRATUM_ZERO_FILL_DONE (R193, R194). -/
def execStratumZeroFillDone (f : Fin 72) (s : State) : Host.Outcome State Fault Refusal := onMod s (fun m => m.fillDone f)

/-- STRATUM_TRAINING_DONE (R189, R194); a bring-up's training lasts to the zero-fill's step (Tables 08-4 and 16-1). -/
def execStratumTrainingDone (f : Fin 72) (ok : Bool) (s : State) : Host.Outcome State Fault Refusal :=
  onMod s (fun m => if ok && decide (m.get buStep ≤ 7) then m else m.trainingDone f ok)

/-- STRATUM_CHANNEL_LOSS (R189). -/
def execStratumChannelLoss (f : Fin 72) (ch : Fin 16) (s : State) : Host.Outcome State Fault Refusal :=
  onMod s (fun m => m.channelLost f ch)

end Sys2Proof.Machine
end

