-- ==== Sys2Proof/Machine/VectorCmds.lean ====
section
/-! DEFINITION. The commands of the vector core (06, Table 06-3): one instruction of a running core each. -/

namespace Sys2Proof.Machine

/-- VADD (R131). -/
def execVadd (c : CellRef) (r : VRForm) (s : State) :
    Host.Outcome State Fault Refusal :=
  onCell s c (opVector 0x10) (fun _ => vaddOp r)

/-- VSUB (R131). -/
def execVsub (c : CellRef) (r : VRForm) (s : State) :
    Host.Outcome State Fault Refusal :=
  onCell s c (opVector 0x11) (fun _ => vsubOp r)

/-- VMUL (R131). -/
def execVmul (c : CellRef) (r : VRForm) (s : State) :
    Host.Outcome State Fault Refusal :=
  onCell s c (opVector 0x12) (fun _ => vmulOp r)

/-- VFMA (R131). -/
def execVfma (c : CellRef) (r : VRForm) (s : State) :
    Host.Outcome State Fault Refusal :=
  onCell s c (opVector 0x13) (fun _ => vfmaOp r)

/-- VFNMA (R131). -/
def execVfnma (c : CellRef) (r : VRForm) (s : State) :
    Host.Outcome State Fault Refusal :=
  onCell s c (opVector 0x14) (fun _ => vfnmaOp r)

/-- VMIN (R131). -/
def execVmin (c : CellRef) (r : VRForm) (s : State) :
    Host.Outcome State Fault Refusal :=
  onCell s c (opVector 0x15) (fun _ => vminOp r)

/-- VMAX (R131). -/
def execVmax (c : CellRef) (r : VRForm) (s : State) :
    Host.Outcome State Fault Refusal :=
  onCell s c (opVector 0x16) (fun _ => vmaxOp r)

/-- VDIV (R131). -/
def execVdiv (c : CellRef) (r : VRForm) (s : State) :
    Host.Outcome State Fault Refusal :=
  onCell s c (opVector 0x17) (fun _ => vdivOp r)

/-- VSQRT (R131). -/
def execVsqrt (c : CellRef) (r : VRForm) (s : State) :
    Host.Outcome State Fault Refusal :=
  onCell s c (opVector 0x18) (fun _ => vsqrtOp r)

/-- VRSQRT (R131). -/
def execVrsqrt (c : CellRef) (r : VRForm) (s : State) :
    Host.Outcome State Fault Refusal :=
  onCell s c (opVector 0x19) (fun _ => vrsqrtOp r)

/-- VEXP2 (R131). -/
def execVexp2 (c : CellRef) (r : VRForm) (s : State) :
    Host.Outcome State Fault Refusal :=
  onCell s c (opVector 0x1A) (fun _ => vexp2Op r)

/-- VLOG2 (R131). -/
def execVlog2 (c : CellRef) (r : VRForm) (s : State) :
    Host.Outcome State Fault Refusal :=
  onCell s c (opVector 0x1B) (fun _ => vlog2Op r)

/-- VABS (R131). -/
def execVabs (c : CellRef) (r : VRForm) (s : State) :
    Host.Outcome State Fault Refusal :=
  onCell s c (opVector 0x1C) (fun _ => vabsOp r)

/-- VNEG (R131). -/
def execVneg (c : CellRef) (r : VRForm) (s : State) :
    Host.Outcome State Fault Refusal :=
  onCell s c (opVector 0x1D) (fun _ => vnegOp r)

/-- VCMP (R131). -/
def execVcmp (c : CellRef) (r : VRForm) (s : State) :
    Host.Outcome State Fault Refusal :=
  onCell s c (opVector 0x20) (fun _ => vcmpOp r)

/-- VICMP (R131). -/
def execVicmp (c : CellRef) (r : VRForm) (s : State) :
    Host.Outcome State Fault Refusal :=
  onCell s c (opVector 0x21) (fun _ => vicmpOp r)

/-- VRSUM (R132). -/
def execVrsum (c : CellRef) (r : VRForm) (s : State) :
    Host.Outcome State Fault Refusal :=
  onCell s c (opVector 0x28) (fun _ => vrsumOp r)

/-- VRMAX (R132). -/
def execVrmax (c : CellRef) (r : VRForm) (s : State) :
    Host.Outcome State Fault Refusal :=
  onCell s c (opVector 0x29) (fun _ => vrmaxOp r)

/-- VRMIN (R132). -/
def execVrmin (c : CellRef) (r : VRForm) (s : State) :
    Host.Outcome State Fault Refusal :=
  onCell s c (opVector 0x2A) (fun _ => vrminOp r)

/-- VCVT (R133). -/
def execVcvt (c : CellRef) (r : VRForm) (s : State) :
    Host.Outcome State Fault Refusal :=
  onCell s c (opVector 0x30) (fun _ => vcvtOp r)

/-- VF2I (R131). -/
def execVf2i (c : CellRef) (r : VRForm) (s : State) :
    Host.Outcome State Fault Refusal :=
  onCell s c (opVector 0x31) (fun _ => vf2iOp r)

/-- VI2F (R131). -/
def execVi2f (c : CellRef) (r : VRForm) (s : State) :
    Host.Outcome State Fault Refusal :=
  onCell s c (opVector 0x32) (fun _ => vi2fOp r)

/-- VQMX (R133). -/
def execVqmx (c : CellRef) (r : VRForm) (s : State) :
    Host.Outcome State Fault Refusal :=
  onCell s c (opVector 0x33) (fun _ => vqmxOp r)

/-- VDQMX (R133). -/
def execVdqmx (c : CellRef) (r : VRForm) (s : State) :
    Host.Outcome State Fault Refusal :=
  onCell s c (opVector 0x34) (fun _ => vdqmxOp r)

/-- VSKETCH (R134). -/
def execVsketch (c : CellRef) (r : VRForm) (s : State) :
    Host.Outcome State Fault Refusal :=
  onCell s c (opVector 0x35) (fun _ => vsketchOp r)

/-- VIADD (R131). -/
def execViadd (c : CellRef) (r : VRForm) (s : State) :
    Host.Outcome State Fault Refusal :=
  onCell s c (opVector 0x40) (fun _ => viaddOp r)

/-- VISUB (R131). -/
def execVisub (c : CellRef) (r : VRForm) (s : State) :
    Host.Outcome State Fault Refusal :=
  onCell s c (opVector 0x41) (fun _ => visubOp r)

/-- VIMUL (R131). -/
def execVimul (c : CellRef) (r : VRForm) (s : State) :
    Host.Outcome State Fault Refusal :=
  onCell s c (opVector 0x42) (fun _ => vimulOp r)

/-- VAND (R131). -/
def execVand (c : CellRef) (r : VRForm) (s : State) :
    Host.Outcome State Fault Refusal :=
  onCell s c (opVector 0x43) (fun _ => vandOp r)

/-- VOR (R131). -/
def execVor (c : CellRef) (r : VRForm) (s : State) :
    Host.Outcome State Fault Refusal :=
  onCell s c (opVector 0x44) (fun _ => vorOp r)

/-- VXOR (R131). -/
def execVxor (c : CellRef) (r : VRForm) (s : State) :
    Host.Outcome State Fault Refusal :=
  onCell s c (opVector 0x45) (fun _ => vxorOp r)

/-- VSHL (R131). -/
def execVshl (c : CellRef) (r : VRForm) (s : State) :
    Host.Outcome State Fault Refusal :=
  onCell s c (opVector 0x46) (fun _ => vshlOp r)

/-- VSHR (R131). -/
def execVshr (c : CellRef) (r : VRForm) (s : State) :
    Host.Outcome State Fault Refusal :=
  onCell s c (opVector 0x47) (fun _ => vshrOp r)

/-- VSRA (R131). -/
def execVsra (c : CellRef) (r : VRForm) (s : State) :
    Host.Outcome State Fault Refusal :=
  onCell s c (opVector 0x48) (fun _ => vsraOp r)

/-- VIMIN (R131). -/
def execVimin (c : CellRef) (r : VRForm) (s : State) :
    Host.Outcome State Fault Refusal :=
  onCell s c (opVector 0x49) (fun _ => viminOp r)

/-- VIMAX (R131). -/
def execVimax (c : CellRef) (r : VRForm) (s : State) :
    Host.Outcome State Fault Refusal :=
  onCell s c (opVector 0x4A) (fun _ => vimaxOp r)

/-- VMOV (R131). -/
def execVmov (c : CellRef) (r : VRForm) (s : State) :
    Host.Outcome State Fault Refusal :=
  onCell s c (opVector 0x50) (fun _ => vmovOp r)

/-- VPERM (R131). -/
def execVperm (c : CellRef) (r : VRForm) (s : State) :
    Host.Outcome State Fault Refusal :=
  onCell s c (opVector 0x51) (fun _ => vpermOp r)

/-- VTRANS (R131). -/
def execVtrans (c : CellRef) (r : VRForm) (s : State) :
    Host.Outcome State Fault Refusal :=
  onCell s c (opVector 0x52) (fun _ => vtransOp r)

/-- VBCAST (R131). -/
def execVbcast (c : CellRef) (r : VRForm) (s : State) :
    Host.Outcome State Fault Refusal :=
  onCell s c (opVector 0x53) (fun _ => vbcastOp r)

/-- VSPLAT (R131). -/
def execVsplat (c : CellRef) (r : VIForm) (s : State) :
    Host.Outcome State Fault Refusal :=
  onCell s c (opVector 0x54) (fun _ => vsplatOp r)

/-- KLOGIC (R131). -/
def execKlogic (c : CellRef) (r : VRForm) (s : State) :
    Host.Outcome State Fault Refusal :=
  onCell s c (opVector 0x58) (fun _ => klogicOp r)

/-- KPOP (R131). -/
def execKpop (c : CellRef) (r : VRForm) (s : State) :
    Host.Outcome State Fault Refusal :=
  onCell s c (opVector 0x59) (fun _ => kpopOp r)

/-- KFROMV (R131). -/
def execKfromv (c : CellRef) (r : VRForm) (s : State) :
    Host.Outcome State Fault Refusal :=
  onCell s c (opVector 0x5A) (fun _ => kfromvOp r)

/-- VFROMK (R131). -/
def execVfromk (c : CellRef) (r : VRForm) (s : State) :
    Host.Outcome State Fault Refusal :=
  onCell s c (opVector 0x5B) (fun _ => vfromkOp r)

/-- VLD (R135). -/
def execVld (c : CellRef) (r : VMForm) (s : State) :
    Host.Outcome State Fault Refusal :=
  onCell s c (opVector 0x60) (fun _ => vldOp r)

/-- VST (R135). -/
def execVst (c : CellRef) (r : VMForm) (s : State) :
    Host.Outcome State Fault Refusal :=
  onCell s c (opVector 0x61) (fun _ => vstOp r)

/-- VSTP (R135). -/
def execVstp (c : CellRef) (r : VMForm) (s : State) :
    Host.Outcome State Fault Refusal :=
  onCell s c (opVector 0x62) (fun _ => vstpOp r)

/-- VSETAI (R131). -/
def execVsetai (c : CellRef) (r : VCForm) (s : State) :
    Host.Outcome State Fault Refusal :=
  onCell s c (opVector 0x70) (fun _ => vsetaiOp r)

/-- VADDAI (R131). -/
def execVaddai (c : CellRef) (r : VCForm) (s : State) :
    Host.Outcome State Fault Refusal :=
  onCell s c (opVector 0x71) (fun _ => vaddaiOp r)

/-- VLOOP (R131). -/
def execVloop (c : CellRef) (r : VCForm) (s : State) :
    Host.Outcome State Fault Refusal :=
  onCell s c (opVector 0x72) (fun _ => vloopOp r)

/-- VJMP (R131). -/
def execVjmp (c : CellRef) (r : VCForm) (s : State) :
    Host.Outcome State Fault Refusal :=
  onCell s c (opVector 0x73) (fun _ => vjmpOp r)

/-- VBRK (R131). -/
def execVbrk (c : CellRef) (r : VCForm) (s : State) :
    Host.Outcome State Fault Refusal :=
  onCell s c (opVector 0x74) (fun _ => vbrkOp r)

/-- VTIN (R156). -/
def execVtin (c : CellRef) (r : VCForm) (s : State) :
    Host.Outcome State Fault Refusal :=
  onCell s c (opVector 0x75) (fun e => vtinOp e r)

/-- VTOUT (R156). -/
def execVtout (c : CellRef) (r : VCForm) (s : State) :
    Host.Outcome State Fault Refusal :=
  onCell s c (opVector 0x76) (fun e => vtoutOp e r)

/-- VFENCE (R131). -/
def execVfence (c : CellRef) (r : VCForm) (s : State) :
    Host.Outcome State Fault Refusal :=
  onCell s c (opVector 0x77) (fun _ => vfenceOp r)

/-- VHALT (R131). -/
def execVhalt (c : CellRef) (r : VCForm) (s : State) :
    Host.Outcome State Fault Refusal :=
  onCell s c (opVector 0x7F) (fun _ => vhaltOp r)

end Sys2Proof.Machine
end

