-- ==== Sys2Proof/Machine/Dispatch.lean ====
section
/-! DEFINITION. The dispatch: one arm for each command. -/

namespace Sys2Proof.Machine

/-- What a command does to the state (the queue is the step's). -/
def exec (i : Instr) (s : State) : Host.Outcome State Fault Refusal :=
  match i with
  | .alu a b => Sys2Proof.Machine.execAlu a b s
  | .addi a b => Sys2Proof.Machine.execAddi a b s
  | .andi a b => Sys2Proof.Machine.execAndi a b s
  | .ori a b => Sys2Proof.Machine.execOri a b s
  | .xori a b => Sys2Proof.Machine.execXori a b s
  | .shi a b => Sys2Proof.Machine.execShi a b s
  | .lui a b => Sys2Proof.Machine.execLui a b s
  | .slti a b => Sys2Proof.Machine.execSlti a b s
  | .lb a b => Sys2Proof.Machine.execLb a b s
  | .lbu a b => Sys2Proof.Machine.execLbu a b s
  | .lh a b => Sys2Proof.Machine.execLh a b s
  | .lhu a b => Sys2Proof.Machine.execLhu a b s
  | .lw a b => Sys2Proof.Machine.execLw a b s
  | .lwu a b => Sys2Proof.Machine.execLwu a b s
  | .ld a b => Sys2Proof.Machine.execLd a b s
  | .sb a b => Sys2Proof.Machine.execSb a b s
  | .sh a b => Sys2Proof.Machine.execSh a b s
  | .sw a b => Sys2Proof.Machine.execSw a b s
  | .sd a b => Sys2Proof.Machine.execSd a b s
  | .fld a b => Sys2Proof.Machine.execFld a b s
  | .fst a b => Sys2Proof.Machine.execFst a b s
  | .fatom a b => Sys2Proof.Machine.execFatom a b s
  | .fabricReply a b => Sys2Proof.Machine.execFabricReply a b s
  | .fenceRelease a b => Sys2Proof.Machine.execFenceRelease a b s
  | .fenceAcquire a b => Sys2Proof.Machine.execFenceAcquire a b s
  | .fullFence a b => Sys2Proof.Machine.execFullFence a b s
  | .beq a b => Sys2Proof.Machine.execBeq a b s
  | .bne a b => Sys2Proof.Machine.execBne a b s
  | .blt a b => Sys2Proof.Machine.execBlt a b s
  | .bge a b => Sys2Proof.Machine.execBge a b s
  | .bltu a b => Sys2Proof.Machine.execBltu a b s
  | .bgeu a b => Sys2Proof.Machine.execBgeu a b s
  | .jal a b => Sys2Proof.Machine.execJal a b s
  | .jalr a b => Sys2Proof.Machine.execJalr a b s
  | .mcpush a b => Sys2Proof.Machine.execMcpush a b s
  | .mcrd a b => Sys2Proof.Machine.execMcrd a b s
  | .mcclr a b => Sys2Proof.Machine.execMcclr a b s
  | .mcwait a b => Sys2Proof.Machine.execMcwait a b s
  | .vstart a b => Sys2Proof.Machine.execVstart a b s
  | .vseta a b => Sys2Proof.Machine.execVseta a b s
  | .vrd a b => Sys2Proof.Machine.execVrd a b s
  | .vclr a b => Sys2Proof.Machine.execVclr a b s
  | .fly a b => Sys2Proof.Machine.execFly a b s
  | .flywait a b => Sys2Proof.Machine.execFlywait a b s
  | .asend a b => Sys2Proof.Machine.execAsend a b s
  | .arecv a b => Sys2Proof.Machine.execArecv a b s
  | .tin a b => Sys2Proof.Machine.execTin a b s
  | .tout a b => Sys2Proof.Machine.execTout a b s
  | .waitev a b => Sys2Proof.Machine.execWaitev a b s
  | .csrr a b => Sys2Proof.Machine.execCsrr a b s
  | .csrw a b => Sys2Proof.Machine.execCsrw a b s
  | .sceneack a b => Sys2Proof.Machine.execSceneack a b s
  | .jend a b => Sys2Proof.Machine.execJend a b s
  | .seedv a b => Sys2Proof.Machine.execSeedv a b s
  | .gatherTimeoutFlush a b c => Sys2Proof.Machine.execGatherTimeoutFlush a b c s
  | .eccWriteBack a b => Sys2Proof.Machine.execEccWriteBack a b s
  | .scrubRead a b c => Sys2Proof.Machine.execScrubRead a b c s
  | .mma a b => Sys2Proof.Machine.execMma a b s
  | .mmasp a b => Sys2Proof.Machine.execMmasp a b s
  | .preview a b => Sys2Proof.Machine.execPreview a b s
  | .ldacc a b => Sys2Proof.Machine.execLdacc a b s
  | .stacc a b => Sys2Proof.Machine.execStacc a b s
  | .zacc a b => Sys2Proof.Machine.execZacc a b s
  | .seed a b => Sys2Proof.Machine.execSeed a b s
  | .setmask a b => Sys2Proof.Machine.execSetmask a b s
  | .sync a b => Sys2Proof.Machine.execSync a b s
  | .matrixCommandComplete a b c => Sys2Proof.Machine.execMatrixCommandComplete a b c s
  | .vadd a b => Sys2Proof.Machine.execVadd a b s
  | .vsub a b => Sys2Proof.Machine.execVsub a b s
  | .vmul a b => Sys2Proof.Machine.execVmul a b s
  | .vfma a b => Sys2Proof.Machine.execVfma a b s
  | .vfnma a b => Sys2Proof.Machine.execVfnma a b s
  | .vmin a b => Sys2Proof.Machine.execVmin a b s
  | .vmax a b => Sys2Proof.Machine.execVmax a b s
  | .vdiv a b => Sys2Proof.Machine.execVdiv a b s
  | .vsqrt a b => Sys2Proof.Machine.execVsqrt a b s
  | .vrsqrt a b => Sys2Proof.Machine.execVrsqrt a b s
  | .vexp2 a b => Sys2Proof.Machine.execVexp2 a b s
  | .vlog2 a b => Sys2Proof.Machine.execVlog2 a b s
  | .vabs a b => Sys2Proof.Machine.execVabs a b s
  | .vneg a b => Sys2Proof.Machine.execVneg a b s
  | .vcmp a b => Sys2Proof.Machine.execVcmp a b s
  | .vicmp a b => Sys2Proof.Machine.execVicmp a b s
  | .vrsum a b => Sys2Proof.Machine.execVrsum a b s
  | .vrmax a b => Sys2Proof.Machine.execVrmax a b s
  | .vrmin a b => Sys2Proof.Machine.execVrmin a b s
  | .vcvt a b => Sys2Proof.Machine.execVcvt a b s
  | .vf2i a b => Sys2Proof.Machine.execVf2i a b s
  | .vi2f a b => Sys2Proof.Machine.execVi2f a b s
  | .vqmx a b => Sys2Proof.Machine.execVqmx a b s
  | .vdqmx a b => Sys2Proof.Machine.execVdqmx a b s
  | .vsketch a b => Sys2Proof.Machine.execVsketch a b s
  | .viadd a b => Sys2Proof.Machine.execViadd a b s
  | .visub a b => Sys2Proof.Machine.execVisub a b s
  | .vimul a b => Sys2Proof.Machine.execVimul a b s
  | .vand a b => Sys2Proof.Machine.execVand a b s
  | .vor a b => Sys2Proof.Machine.execVor a b s
  | .vxor a b => Sys2Proof.Machine.execVxor a b s
  | .vshl a b => Sys2Proof.Machine.execVshl a b s
  | .vshr a b => Sys2Proof.Machine.execVshr a b s
  | .vsra a b => Sys2Proof.Machine.execVsra a b s
  | .vimin a b => Sys2Proof.Machine.execVimin a b s
  | .vimax a b => Sys2Proof.Machine.execVimax a b s
  | .vmov a b => Sys2Proof.Machine.execVmov a b s
  | .vperm a b => Sys2Proof.Machine.execVperm a b s
  | .vtrans a b => Sys2Proof.Machine.execVtrans a b s
  | .vbcast a b => Sys2Proof.Machine.execVbcast a b s
  | .vsplat a b => Sys2Proof.Machine.execVsplat a b s
  | .klogic a b => Sys2Proof.Machine.execKlogic a b s
  | .kpop a b => Sys2Proof.Machine.execKpop a b s
  | .kfromv a b => Sys2Proof.Machine.execKfromv a b s
  | .vfromk a b => Sys2Proof.Machine.execVfromk a b s
  | .vld a b => Sys2Proof.Machine.execVld a b s
  | .vst a b => Sys2Proof.Machine.execVst a b s
  | .vstp a b => Sys2Proof.Machine.execVstp a b s
  | .vsetai a b => Sys2Proof.Machine.execVsetai a b s
  | .vaddai a b => Sys2Proof.Machine.execVaddai a b s
  | .vloop a b => Sys2Proof.Machine.execVloop a b s
  | .vjmp a b => Sys2Proof.Machine.execVjmp a b s
  | .vbrk a b => Sys2Proof.Machine.execVbrk a b s
  | .vtin a b => Sys2Proof.Machine.execVtin a b s
  | .vtout a b => Sys2Proof.Machine.execVtout a b s
  | .vfence a b => Sys2Proof.Machine.execVfence a b s
  | .vhalt a b => Sys2Proof.Machine.execVhalt a b s
  | .flyRequestIssue a => Sys2Proof.Machine.execFlyRequestIssue a s
  | .flyReply a b => Sys2Proof.Machine.execFlyReply a b s
  | .flyTransferComplete a b => Sys2Proof.Machine.execFlyTransferComplete a b s
  | .cellMemoryRequest a => Sys2Proof.Machine.execCellMemoryRequest a s
  | .asideDelivery a => Sys2Proof.Machine.execAsideDelivery a s
  | .asideRefusal a => Sys2Proof.Machine.execAsideRefusal a s
  | .meshPacketHop a => Sys2Proof.Machine.execMeshPacketHop a s
  | .meshFlitParityError a b => Sys2Proof.Machine.execMeshFlitParityError a b s
  | .tokenDeparture a b => Sys2Proof.Machine.execTokenDeparture a b s
  | .seamTokenArrival a b => Sys2Proof.Machine.execSeamTokenArrival a b s
  | .creditReturn a b c => Sys2Proof.Machine.execCreditReturn a b c s
  | .steeringFire a b => Sys2Proof.Machine.execSteeringFire a b s
  | .rigSampleRecord a => Sys2Proof.Machine.execRigSampleRecord a s
  | .sceneGo a b c => Sys2Proof.Machine.execSceneGo a b c s
  | .sceneStage a b c => Sys2Proof.Machine.execSceneStage a b c s
  | .stagingComplete a => Sys2Proof.Machine.execStagingComplete a s
  | .sceneRequest a b => Sys2Proof.Machine.execSceneRequest a b s
  | .strikeClean a => Sys2Proof.Machine.execStrikeClean a s
  | .strikeTimeout a => Sys2Proof.Machine.execStrikeTimeout a s
  | .ackTimeout a => Sys2Proof.Machine.execAckTimeout a s
  | .sceneInstall a b => Sys2Proof.Machine.execSceneInstall a b s
  | .sceneRelease a => Sys2Proof.Machine.execSceneRelease a s
  | .stratumRequest a b c => Sys2Proof.Machine.execStratumRequest a b c s
  | .stratumRowClose a b c => Sys2Proof.Machine.execStratumRowClose a b c s
  | .stratumWriteBack a b c => Sys2Proof.Machine.execStratumWriteBack a b c s
  | .stratumScrub a b c d => Sys2Proof.Machine.execStratumScrub a b c d s
  | .stratumZeroFillDone a => Sys2Proof.Machine.execStratumZeroFillDone a s
  | .stratumTrainingDone a b => Sys2Proof.Machine.execStratumTrainingDone a b s
  | .linkFrameReceive a b => Sys2Proof.Machine.execLinkFrameReceive a b s
  | .linkRetry a b => Sys2Proof.Machine.execLinkRetry a b s
  | .laneLoss a b => Sys2Proof.Machine.execLaneLoss a b s
  | .lossOfSignal a => Sys2Proof.Machine.execLossOfSignal a s
  | .portRetrain a => Sys2Proof.Machine.execPortRetrain a s
  | .portEnWrite a b => Sys2Proof.Machine.execPortEnWrite a b s
  | .shedinPacketArrival a => Sys2Proof.Machine.execShedinPacketArrival a s
  | .flowAcknowledgement a b => Sys2Proof.Machine.execFlowAcknowledgement a b s
  | .residenceLimit a b c => Sys2Proof.Machine.execResidenceLimit a b c s
  | .requestTimeout a => Sys2Proof.Machine.execRequestTimeout a s
  | .injectionQuietEnd => Sys2Proof.Machine.execInjectionQuietEnd s
  | .adaptiveLoadReport a b => Sys2Proof.Machine.execAdaptiveLoadReport a b s
  | .routeTableWrite a b c => Sys2Proof.Machine.execRouteTableWrite a b c s
  | .flip a => Sys2Proof.Machine.execFlip a s
  | .drainRetire => Sys2Proof.Machine.execDrainRetire s
  | .bounceReinject => Sys2Proof.Machine.execBounceReinject s
  | .ledgerAddition a b => Sys2Proof.Machine.execLedgerAddition a b s
  | .chorusGo a b c => Sys2Proof.Machine.execChorusGo a b c s
  | .groupDescriptorStart a => Sys2Proof.Machine.execGroupDescriptorStart a s
  | .multicastChunk a b => Sys2Proof.Machine.execMulticastChunk a b s
  | .chorusChunk a b => Sys2Proof.Machine.execChorusChunk a b s
  | .roundAbandon a => Sys2Proof.Machine.execRoundAbandon a s
  | .resume a b c => Sys2Proof.Machine.execResume a b c s
  | .abandon a b c => Sys2Proof.Machine.execAbandon a b c s
  | .shedinJobWrite a b c => Sys2Proof.Machine.execShedinJobWrite a b c s
  | .poll a => Sys2Proof.Machine.execPoll a s
  | .pollData a b c => Sys2Proof.Machine.execPollData a b c s
  | .cueReadReturn a b c d => Sys2Proof.Machine.execCueReadReturn a b c d s
  | .nop a b => Sys2Proof.Machine.execNop a b s
  | .load a b c => Sys2Proof.Machine.execLoad a b c s
  | .loadFinish a b => Sys2Proof.Machine.execLoadFinish a b s
  | .run a b => Sys2Proof.Machine.execRun a b s
  | .unload a b => Sys2Proof.Machine.execUnload a b s
  | .scene a b => Sys2Proof.Machine.execScene a b s
  | .stopAtInterval a b => Sys2Proof.Machine.execStopAtInterval a b s
  | .stopNow a b => Sys2Proof.Machine.execStopNow a b s
  | .wait a b => Sys2Proof.Machine.execWait a b s
  | .jobEnd a => Sys2Proof.Machine.execJobEnd a s
  | .runTimeout a => Sys2Proof.Machine.execRunTimeout a s
  | .msiXMessage a b c => Sys2Proof.Machine.execMsiXMessage a b c s
  | .cbCtrlWrite a b c => Sys2Proof.Machine.execCbCtrlWrite a b c s
  | .ringConfigWrite a b c d e f => Sys2Proof.Machine.execRingConfigWrite a b c d e f s
  | .hwinCfgWrite a b c d e => Sys2Proof.Machine.execHwinCfgWrite a b c d e s
  | .hostWindowAccess a b => Sys2Proof.Machine.execHostWindowAccess a b s
  | .perstAssert a => Sys2Proof.Machine.execPerstAssert a s
  | .perstDeassert a => Sys2Proof.Machine.execPerstDeassert a s
  | .vfDisable a b => Sys2Proof.Machine.execVfDisable a b s
  | .companyEnable a b c => Sys2Proof.Machine.execCompanyEnable a b c s
  | .companyDisable a b c => Sys2Proof.Machine.execCompanyDisable a b c s
  | .companyReady a => Sys2Proof.Machine.execCompanyReady a s
  | .companyShareWrite a b c => Sys2Proof.Machine.execCompanyShareWrite a b c s
  | .devNumWrite a => Sys2Proof.Machine.execDevNumWrite a s
  | .injEnWrite a => Sys2Proof.Machine.execInjEnWrite a s
  | .oppMapWrite a b c d => Sys2Proof.Machine.execOppMapWrite a b c d s
  | .encLenWrite a b c => Sys2Proof.Machine.execEncLenWrite a b c s
  | .encCtrlWrite a b c => Sys2Proof.Machine.execEncCtrlWrite a b c s
  | .registerWrite a b c d => Sys2Proof.Machine.execRegisterWrite a b c d s
  | .powerGood a => Sys2Proof.Machine.execPowerGood a s
  | .clockCheckAttempt => Sys2Proof.Machine.execClockCheckAttempt s
  | .clockWindowVerdict a => Sys2Proof.Machine.execClockWindowVerdict a s
  | .delayModeWaitEnd a b => Sys2Proof.Machine.execDelayModeWaitEnd a b s
  | .managementPllLock => Sys2Proof.Machine.execManagementPllLock s
  | .standbyReadCode => Sys2Proof.Machine.execStandbyReadCode s
  | .standbyReadAttempts => Sys2Proof.Machine.execStandbyReadAttempts s
  | .standbyRestart => Sys2Proof.Machine.execStandbyRestart s
  | .frequencyMonitorWindow a => Sys2Proof.Machine.execFrequencyMonitorWindow a s
  | .lossOfClock a => Sys2Proof.Machine.execLossOfClock a s
  | .fieldPllLoss a => Sys2Proof.Machine.execFieldPllLoss a s
  | .fieldPllRelockTry a b => Sys2Proof.Machine.execFieldPllRelockTry a b s
  | .clockSwitch a => Sys2Proof.Machine.execClockSwitch a s
  | .fieldPllLock a => Sys2Proof.Machine.execFieldPllLock a s
  | .freqMeasGo a => Sys2Proof.Machine.execFreqMeasGo a s
  | .freqMeasDone a => Sys2Proof.Machine.execFreqMeasDone a s
  | .moduleLimiterStep a => Sys2Proof.Machine.execModuleLimiterStep a s
  | .hardLimit a => Sys2Proof.Machine.execHardLimit a s
  | .powerWaveStart => Sys2Proof.Machine.execPowerWaveStart s
  | .powerWaveRampDone => Sys2Proof.Machine.execPowerWaveRampDone s
  | .controlStep a b c d => Sys2Proof.Machine.execControlStep a b c d s
  | .hardThresholdEnd a => Sys2Proof.Machine.execHardThresholdEnd a s
  | .thermalTrip a => Sys2Proof.Machine.execThermalTrip a s
  | .vampStep a b c d => Sys2Proof.Machine.execVampStep a b c d s
  | .energyUpdate a b => Sys2Proof.Machine.execEnergyUpdate a b s
  | .inputPowerFault => Sys2Proof.Machine.execInputPowerFault s
  | .pwrEnRise => Sys2Proof.Machine.execPwrEnRise s
  | .pwrEnFall => Sys2Proof.Machine.execPwrEnFall s
  | .bringupStepComplete a => Sys2Proof.Machine.execBringupStepComplete a s
  | .bringupStepTimeout => Sys2Proof.Machine.execBringupStepTimeout s
  | .ptpWaitEnd a => Sys2Proof.Machine.execPtpWaitEnd a s
  | .bootImageLoad a b => Sys2Proof.Machine.execBootImageLoad a b s
  | .encoreCopyDone a => Sys2Proof.Machine.execEncoreCopyDone a s
  | .encoreReplayEnd a b c d => Sys2Proof.Machine.execEncoreReplayEnd a b c d s
  | .encoreDigestCompare a => Sys2Proof.Machine.execEncoreDigestCompare a s
  | .replayTimeout a => Sys2Proof.Machine.execReplayTimeout a s
  | .rehearsalStart a => Sys2Proof.Machine.execRehearsalStart a s
  | .rehearsalEnd a b => Sys2Proof.Machine.execRehearsalEnd a b s
  | .rehearsalOverdue a => Sys2Proof.Machine.execRehearsalOverdue a s
  | .livenessProbe a b c => Sys2Proof.Machine.execLivenessProbe a b c s
  | .cellDeath a b c => Sys2Proof.Machine.execCellDeath a b c s
  | .understudyCall a b c => Sys2Proof.Machine.execUnderstudyCall a b c s
  | .errorDatagram a => Sys2Proof.Machine.execErrorDatagram a s
  | .contextReset a b c => Sys2Proof.Machine.execContextReset a b c s
  | .ringContextReset a b c => Sys2Proof.Machine.execRingContextReset a b c s
  | .partitionReset a b c => Sys2Proof.Machine.execPartitionReset a b c s
  | .engineReset a b => Sys2Proof.Machine.execEngineReset a b s
  | .chipReset a => Sys2Proof.Machine.execChipReset a s
  | .chipResetComplete => Sys2Proof.Machine.execChipResetComplete s
  | .ghost a => Sys2Proof.Machine.execGhost a s
  | .ghostExitCondition => Sys2Proof.Machine.execGhostExitCondition s
  | .resetEscalation a => Sys2Proof.Machine.execResetEscalation a s
  | .wdogKick => Sys2Proof.Machine.execWdogKick s
  | .watchdogExpiry a => Sys2Proof.Machine.execWatchdogExpiry a s
  | .generationWaitEnd a b => Sys2Proof.Machine.execGenerationWaitEnd a b s
  | .tagQuarantineEnd a => Sys2Proof.Machine.execTagQuarantineEnd a s
  | .domainDrainCut a => Sys2Proof.Machine.execDomainDrainCut a s
  | .stratumLowInputOff => Sys2Proof.Machine.execStratumLowInputOff s
  | .configRecordRecompute => Sys2Proof.Machine.execConfigRecordRecompute s
  | .getVersion a b => Sys2Proof.Machine.execGetVersion a b s
  | .getCapabilities a b => Sys2Proof.Machine.execGetCapabilities a b s
  | .negotiateAlgorithms a b => Sys2Proof.Machine.execNegotiateAlgorithms a b s
  | .getDigests a b => Sys2Proof.Machine.execGetDigests a b s
  | .getCertificate a b => Sys2Proof.Machine.execGetCertificate a b s
  | .challenge a b => Sys2Proof.Machine.execChallenge a b s
  | .getMeasurements a b => Sys2Proof.Machine.execGetMeasurements a b s
  | .snapshotGo a b => Sys2Proof.Machine.execSnapshotGo a b s
  | .snapshotComplete a => Sys2Proof.Machine.execSnapshotComplete a s
  | .cntSelWrite a b c => Sys2Proof.Machine.execCntSelWrite a b c s
  | .wmSelWrite a b => Sys2Proof.Machine.execWmSelWrite a b s
  | .watermarkCrossing a => Sys2Proof.Machine.execWatermarkCrossing a s
  | .watermarkClear a b => Sys2Proof.Machine.execWatermarkClear a b s
  | .telemetryPeriod a => Sys2Proof.Machine.execTelemetryPeriod a s
  | .traceFrame a => Sys2Proof.Machine.execTraceFrame a s
  | .traceCtrlWrite a b => Sys2Proof.Machine.execTraceCtrlWrite a b s
  | .alertResponse => Sys2Proof.Machine.execAlertResponse s
  | .extest a => Sys2Proof.Machine.execExtest a s
  | .idcode => Sys2Proof.Machine.execIdcode s
  | .samplePreload a => Sys2Proof.Machine.execSamplePreload a s
  | .bypass => Sys2Proof.Machine.execBypass s
  | .portTrainingDone a b => Sys2Proof.Machine.execPortTrainingDone a b s
  | .inputVoltageCrossing a => Sys2Proof.Machine.execInputVoltageCrossing a s
  | .inletOutOfRange a => Sys2Proof.Machine.execInletOutOfRange a s
  | .stratumChannelLoss a b => Sys2Proof.Machine.execStratumChannelLoss a b s
  | .encoreCopyBackDone a b => Sys2Proof.Machine.execEncoreCopyBackDone a b s
  | .resetComplete a b => Sys2Proof.Machine.execResetComplete a b s
  | .vfEnable a b => Sys2Proof.Machine.execVfEnable a b s

end Sys2Proof.Machine
end

