-- ==== Sys2Proof/Machine/Tick.lean ====
section
/-! DEFINITION. What passes while no command waits (log entry 3): a nanosecond of the module's time base, a core clock cycle
and a rigging slot of every powered field, an idle flit slot at every mesh output. -/

namespace Sys2Proof.Machine

/-- A field's cycle and slot counters one further where its domain is on (R152, R157). -/
def Mod.tickField (m : Mod) (f : Nat) : Mod :=
  if m.fieldOn f then
    let x := m.field f
    m.setField f { x with cycle := x.cycle + 1, slot := (x.slot + 1) % 16, slots := x.slots + 1 }
  else m

/-- An idle flit slot at a mesh output (R208). -/
def idleSlot (h : List Bool) : List Bool := (false :: h).take 16

/-- Time passes. -/
def Mod.tick (m : Mod) : Mod :=
  let m := m.each allFields Mod.tickField
  { m with now := m.now + 1, slots := (m.slots.map (fun e => (e.1, idleSlot e.2))).filter (fun e => e.2.any id) }

end Sys2Proof.Machine
end

