-- ==== Sys2Proof/Safety.lean ====
section
/-! DEFINITION. The terms claims are stated in: a step that goes on, a scalar core ready to issue,
the state an instruction of a cell leaves, memory in canonical form. -/

namespace Sys2Proof

open Machine

/-- The step answers a next state. -/
def StepGoesOn (s : State) : Prop := ∃ t, step s = .next t

/-! Cells. -/

/-- A cell as its next step finds it. -/
def cellOf (s : State) (c : CellRef) : Cell := { s.m.cell c.field c.lcell with notes := [] }

/-- What the cell's engines see of the module. -/
def envOf (s : State) (c : CellRef) : Env := s.m.env c.field c.lcell

/-- The cell's engines run (R403), and its company's job, if there is one, is not held (R273). -/
def CellGoes (s : State) (c : CellRef) : Prop :=
  s.m.cellRuns c.field c.lcell = true ∧ s.m.coHeld (s.m.coOf c.field) = false

/-- The scalar core of a cell may issue an instruction with opcode `op`, of class `cls`, that names the registers
`regs`: its cell goes, it runs or waits in that instruction, its PC is inside the scratchpad (R139), and no fence, no
acquire access and no awaited register holds it (R229 to R231). -/
def ScalarMay (s : State) (c : CellRef) (op cls : Nat) (regs : List Nat) : Prop :=
  CellGoes s c ∧ scalarReady (cellOf s c).sc op = true ∧ (cellOf s c).sc.pc < 0x30000 ∧
    scalarHeld (cellOf s c).sc cls regs = false

/-- No scene change of the cell's company waits for acknowledgements (R169). -/
def NoSceneWait (s : State) (c : CellRef) : Prop :=
  ∀ co g, s.m.coOf c.field = some co → (s.m.co co).change = some g → g.phase ≠ 1

/-- The state with the cell replaced. -/
def withCell (s : State) (c : CellRef) (k : Cell) : State := { s with m := s.m.setCell c.field c.lcell k }

/-- The state with an event of the cell counted (Table 20-1). -/
def counted (s : State) (c : CellRef) (kind code : Nat) : State :=
  { s with m := s.m.count kind code c.field c.lcell 0 1 }

/-- The state with `n` events of one of the cell's units counted (Table 20-1). -/
def countedAt (s : State) (c : CellRef) (kind code sub n : Nat) : State :=
  { s with m := s.m.count kind code c.field c.lcell sub n }

/-- The state that a scalar instruction leaves: the cell is `k` but for its core, which runs on at `pc`; one more
instruction is counted; nothing else has changed. -/
def ran (s : State) (c : CellRef) (pc : Nat) (k : Cell) : State :=
  counted (withCell s c { k with sc := { k.sc with run := .running, asleep := 0, pc := pc } }) c 3 1

/-- The state with the cell replaced by `k`, and what `k` tells told to the logic around it (R59, R105, R144, R148, R151,
R159); `opn` is the OPERATION of its records (Table 17-6). -/
def told (s : State) (c : CellRef) (opn : Nat) (k : Cell) : State :=
  { s with m := (s.m.setCell c.field c.lcell { k with notes := [] }).each k.notes (Mod.noteOne c.field c.lcell opn) }

/-- The state that a scalar instruction leaves whose cell also tells something (an error met in memory, an access that goes
out); `ran` where it tells nothing. -/
def ranTells (s : State) (c : CellRef) (op pc : Nat) (k : Cell) : State :=
  counted (told s c (opScalar op) { k with sc := { k.sc with run := .running, asleep := 0, pc := pc } }) c 3 1

/-- The PC after an instruction that does not branch. -/
def nextPc (s : State) (c : CellRef) : Nat := (cellOf s c).sc.pc + 4

/-- A scalar register of the cell's core. -/
def xreg (s : State) (c : CellRef) (r : BitVec 5) : Word := xget (cellOf s c).sc r.toNat

/-- The cell with a scalar register written. -/
def setX (s : State) (c : CellRef) (r : BitVec 5) (v : Word) : Cell :=
  { cellOf s c with sc := xset (cellOf s c).sc r.toNat v }

/-- The bytes a scalar load of `n` bytes gets: those of memory once the core's own gathered stores to the row have landed
(R53). -/
def ownBytes (k : Cell) (u o n : Nat) : List Byte := (k.flushRow u (o / 64)).bytes u o n

/-- A scalar core's gather buffer in good form (R51, R52): at most four entries, one for a row, each with a row's 64 bytes, none
full, each for a row of the cell's memories. -/
def GatherOk (k : Cell) : Prop :=
  k.sc.gather.length ≤ 4 ∧ (k.sc.gather.map (fun e => (e.unit, e.row))).Nodup ∧
    ∀ e ∈ k.sc.gather, e.data.length = 64 ∧ e.valid < 2 ^ 64 - 1 ∧ e.unit ≤ 8 ∧ e.row < unitRows e.unit

/-- The cell once its scalar core has read a row: its own gathered stores to the row landed first (R53), the words in error that
the read met told and put down for write-back (R58 to R60). -/
def rowRead (k : Cell) (u r : Nat) : Cell := ((k.flushRow u r).readRows 7 u r 1).1

/-- The scalar core's read of a row comes back good: no uncorrectable word in it, and the crossbar, where the row is not in the
core's own scratchpad, got it through in two tries (R59). -/
def RowReads (k : Cell) (u r : Nat) : Prop :=
  (k.flushRow u r).rowsBad u r 1 = false ∧ (u = 7 ∨ (k.flushRow u r).xbarParity ≤ 1)

/-- The state that a faulting scalar instruction leaves (R151): its core stopped, the job fault signalled. -/
def faulted (s : State) (c : CellRef) (code : Nat) : State :=
  let z := { (cellOf s c).sc with run := .stopped, asleep := 0 }
  let t := withCell s c { cellOf s c with sc := z }
  { t with m := t.m.jobFault c.field c.lcell code (cellOf s c).sc.pc }

/-- The state that a scalar instruction leaves that faults once its cell has become `k`. -/
def faultedIn (s : State) (c : CellRef) (op code : Nat) (k : Cell) : State :=
  let t := told s c (opScalar op) { k with sc := { k.sc with run := .stopped, asleep := 0 } }
  { t with m := t.m.jobFault c.field c.lcell code k.sc.pc }

/-- The state of a scalar core that waits in an instruction: the cell is `k` but for that. -/
def waitsIn (s : State) (c : CellRef) (op : Nat) (k : Cell) : State :=
  withCell s c { k with sc := { k.sc with run := .waiting, asleep := op } }

/-! The vector core. -/

/-- The vector core of a cell may issue an instruction with opcode `op`: the cell's engines run, a kernel runs, it does not
wait in another instruction, and its PC is inside the scratchpad (R126, R136). -/
def VecMay (s : State) (c : CellRef) (op : Nat) : Prop :=
  s.m.cellRuns c.field c.lcell = true ∧ (cellOf s c).vec.running = true ∧
    ((cellOf s c).vec.waiting = 0 ∨ (cellOf s c).vec.waiting = op) ∧ (cellOf s c).vec.pc ≤ 24575

/-- The state that a vector instruction leaves: the cell is `k` but for its vector core's PC; one more instruction is
counted; nothing else has changed. -/
def vran (s : State) (c : CellRef) (pc : Nat) (k : Cell) : State :=
  counted (withCell s c { k with vec := { k.vec with pc := pc, waiting := 0, held := false } }) c 2 1

/-- The same of an instruction whose cell also tells something. -/
def vranTells (s : State) (c : CellRef) (op pc : Nat) (k : Cell) : State :=
  counted (told s c (opVector op) { k with vec := { k.vec with pc := pc, waiting := 0, held := false } }) c 2 1

/-- The state that a faulting vector instruction leaves (R138): FAULT, the core halted, the vector-fault event. -/
def vfaulted (s : State) (c : CellRef) (code : Nat) : State :=
  let k := cellOf s c
  withCell s c { k with vec := { k.vec with fault := code, running := false, waiting := 0, held := false }, sc := setEvent k.sc 13 }

/-- The index after a vector instruction that does not jump. -/
def vnext (s : State) (c : CellRef) : Nat := (cellOf s c).vec.pc + 1

/-- Lane `l` of a vector register of the cell. -/
def vlane (s : State) (c : CellRef) (r : BitVec 5) (l : Nat) : Word32 := mget 0 (cellOf s c).vec.v (r.toNat * 64 + l)

/-- A mask register of the cell. -/
def kreg (s : State) (c : CellRef) (r : Nat) : Word := mget 0 (cellOf s c).vec.k r

/-- Whether lane `l` is active (R130). -/
def laneOn (s : State) (c : CellRef) (r : VRForm) (l : Nat) : Bool :=
  decide (r.men = 0) || (kreg s c r.mr.toNat).getLsbD l

/-- A class R encoding with nothing in the fields that every instruction leaves unused or only some use (R129, R130). -/
def RFields (r : VRForm) (vb vc rnd imm men : Bool) : Prop :=
  r.rsv = 0 ∧ (vb = false → r.vb = 0) ∧ (vc = false → r.vc = 0) ∧ (rnd = false → r.rnd = 0) ∧ (imm = false → r.imm8 = 0) ∧
    (men = false → r.men = 0) ∧ (r.men = 0 → r.mr = 0 ∧ r.mz = 0)

/-- The state that an instruction with a vector result leaves (R130): the active lanes of vd new, the others kept or zero,
VSR_STATE as given. -/
def vput (s : State) (c : CellRef) (r : VRForm) (sr : Word32) (f : Nat → Word32) : State :=
  let k := cellOf s c
  vran s c (vnext s c) { k with vec := { vset k.vec r.vd.toNat ((List.range 64).map (fun l =>
    if laneOn s c r l then f l else if r.mz = 1 then 0 else vlane s c r.vd l)) with sr := sr } }

/-- The same of an instruction without draws. -/
def vputInt (s : State) (c : CellRef) (r : VRForm) (f : Nat → Word32) : State := vput s c r (cellOf s c).vec.sr f

/-- The state that an instruction leaves which writes every lane of vd, active or not (R132). -/
def vall (s : State) (c : CellRef) (r : VRForm) (f : Nat → Word32) : State :=
  let k := cellOf s c
  vran s c (vnext s c) { k with vec := vset k.vec r.vd.toNat ((List.range 64).map f) }

/-- What an instruction with a mask result answers (R130): the active lanes' bits of KD new, the others kept or zero, nothing else
changed. -/
def MaskResult (s : State) (c : CellRef) (r : VRForm) (i : Instr) (f : Nat → Bool) : Prop :=
  let k := cellOf s c
  ∃ w, exec i s = .next (vran s c (vnext s c) { k with vec := { k.vec with k := mset 0 k.vec.k r.vd.toNat w } }) ∧
    ∀ l, l < 64 → w.getLsbD l =
      if laneOn s c r l then f l else if r.mz = 1 then false else (kreg s c r.vd.toNat).getLsbD l

/-- A result rounded once to FP32 in each lane, draws in lane order (R75, R131). -/
def vputFp32 (s : State) (c : CellRef) (r : VRForm) (f : Val → Val → Val → Val × Bool) : State :=
  let d := blockDraws r.rnd.toNat 64 (cellOf s c).vec.sr
  vput s c r d.2 (fun l =>
    let y := f (ofFp32 (vlane s c r.va l)) (ofFp32 (vlane s c r.vb l)) (ofFp32 (vlane s c r.vc l))
    toFp32 r.rnd.toNat ((d.1[l]?).getD 0) y.1 y.2)

/-- The half `h` of a lane (R128). -/
def halfOf (w : Word32) (h : Nat) : Half := (w >>> (16 * h)).setWidth 16

/-- A result rounded once to BF16 in each half of each lane, the low half's draw before the high half's (R75, R131). -/
def vputBf16 (s : State) (c : CellRef) (r : VRForm) (f : Val → Val → Val → Val × Bool) : State :=
  let d := blockDraws r.rnd.toNat 128 (cellOf s c).vec.sr
  let one := fun (l h : Nat) =>
    let y := f (ofBf16 (halfOf (vlane s c r.va l) h)) (ofBf16 (halfOf (vlane s c r.vb l) h)) (ofBf16 (halfOf (vlane s c r.vc l) h))
    toBf16 r.rnd.toNat ((d.1[2 * l + h]?).getD 0) y.1 y.2
  vput s c r d.2 (fun l => one l 1 ++ one l 0)

/-- The result of an instruction of both floating formats, by FMT. -/
def vputFloat (s : State) (c : CellRef) (r : VRForm) (f : Val → Val → Val → Val × Bool) : State :=
  if r.fmt = 0 then vputFp32 s c r f else vputBf16 s c r f

/-- A row of a unit with no word in error, read without a crossbar parity error (R58, R59), by an engine that owns no gather
buffer. -/
def RowClean (k : Cell) (u r : Nat) : Prop :=
  k.xbarParity = 0 ∧ k.rowsBad u r 1 = false ∧ ∀ w ∈ k.latent, ¬(memKey u (r * 64) / 8 ≤ w ∧ w < memKey u (r * 64) / 8 + 8)

/-- The first row of a class M access (R135). -/
def vrow (s : State) (c : CellRef) (r : VMForm) : Nat :=
  ((mget 0 (cellOf s c).vec.a r.ar.toNat).toNat + r.off.toNat) % 2 ^ 16

/-- A cell that differs from another in no more than its memories, with their marks, and what an access to them met: words in
error told (R58, R59), crossbar transfers that failed (R59). -/
def OnlyMemory (k k' : Cell) : Prop :=
  k' = { k with mem := k'.mem, poison := k'.poison, latent := k'.latent, wbacks := k'.wbacks, notes := k'.notes
                xbarParity := k'.xbarParity }

/-- The cell with a queue's head token taken: an error in the queue's entry told (R154), and a link input's queue owing its sender a
credit (R159). -/
def tookFrom (q : Nat) (k : Cell) : Cell :=
  { k with rig := k.rig.drop q, notes := k.notes ++ k.rig.headNotes q ++ if q < 64 then [.freed q] else [] }

/-- What a command does to the module: it answers a next state whose module is as `p` says. -/
def Makes (i : Instr) (s : State) (p : Mod → Prop) : Prop :=
  ∃ t, exec i s = .next t ∧ t.pending = s.pending ∧ p t.m

/-- Registers unchanged outside a list of 64-bit offsets. -/
def OnlyRegs (m m' : Mod) (os : List Nat) : Prop := ∀ o, o ∉ os → m'.reg o = m.reg o

/-- A port that a frame put at it leaves at once: up, with no other frame at its egress edge and room in its retry window
(R245). -/
def LeavesAt (m : Mod) (p : Nat) : Prop := m.portUp p = true ∧ (m.oport p).egress = [] ∧ (m.oport p).unacked.length < 1023

/-- Every route decision for a packet, from whatever router, is the one port (R257). -/
def RoutesTo (m : Mod) (fr : Frame) (p : Nat) : Prop := ∀ x y, m.routeOf fr x y = some p

/-- The cue of an OP that a ring begins now (`new`) or has begun, with its bytes; `m`: the module with the cue begun (R290). -/
def CueAt (s : State) (co r op : Nat) (new : Bool) (b : List Byte) (m : Mod) : Prop :=
  s.m.ghost = false ∧ ∃ q, s.m.cueOf co r op = some (new, q, m) ∧ q.bytes = some b

/-- A reset of a company's job under way (R392): the run completion that it will write. -/
def StopsWith (m : Mod) (co status : Nat) (info : Word) : Prop :=
  m.get (gsBusy co) = 1 ∧ ∃ r, (m.co co).reset = some r ∧ r.level = 1 ∧ r.status = status ∧ r.info = info

/-! The standby domain. -/

/-- The codes of the standby logic: Table 14-2's, and Table 14-3's of an operating source that failed. -/
def clockCodes : List Nat := [0, 1, 2, 3, 4, 5, 6, 0x10, 0x11, 0x12, 0x13, 0x14]

/-- What always holds of the standby domain: attempts, trim, code and TAP registers in their ranges; a trim search whose bits left are
zero but for the one tried; a trim within the 8 steps of its start-up value; nothing powered without an input or PWR_EN (R321 to R328,
R434, R435, R451). -/
def StandbyInv (b : Standby) : Prop :=
  b.attempts ≤ 8 ∧ b.trim ≤ 255 ∧ b.trim0 ≤ 255 ∧ b.code ∈ clockCodes ∧ b.boundary < 4096 ∧ b.ir ∈ [0, 1, 2, 15] ∧
    (∀ k, b.phase = .trim k → 1 ≤ k ∧ k ≤ 8 ∧ 2 ^ (k - 1) ≤ b.trim ∧ b.trim + 2 ^ (k - 1) ≤ 256) ∧
    (b.phase = .pll ∨ b.phase = .running → b.trim ≤ b.trim0 + 8 ∧ b.trim0 ≤ b.trim + 8) ∧
    (b.pwrEn = false → b.phase = .off ∧ b.waitVin = false) ∧ (b.vin < 36000 → b.phase = .off)

end Sys2Proof
end

