-- ==== Sys2Proof/Certificates/Slice0/Obligations.lean ====
section
/-! DEFINITION. The statements for the provers. -/

open Sys2Proof Sys2Proof.Machine

/-- A step takes the command at the front of the queue and runs it with the queue's rest. -/
def Obligations.StepRunsTheFrontCommand : Prop :=
  ∀ (c : Instr) (q : List Instr) (s : State), s.pending = c :: q → step s = exec c { s with pending := q }

/-! ### The scalar core (06) -/

/-- The ALU functions and the table's immediate forms write rd, move the PC by 4, count one instruction and change nothing
else (R139 for x0, R141, R142); a reserved FN, U or RB field faults.
The ALU functions of R142, one by one: wrapping arithmetic, shifts by rb[5:0], comparisons, high products, the division
corners, CLZ of 0, MIN and MAX. -/
def Obligations.ScalarResults : Prop :=
  (
    ∀ (s : State) (c : CellRef),
      (∀ x : XForm, ScalarMay s c 0x01 0 [x.ra.toNat, x.rb.toNat, x.rd.toNat] →
        (0x14 < x.fn.toNat ∨ x.u ≠ 0 ∨ (0x11 ≤ x.fn.toNat ∧ x.fn.toNat ≤ 0x12 ∧ x.rb ≠ 0)) →
        exec (.alu c x) s = .next (faulted s c 1)) ∧
      (∀ x : XForm, ScalarMay s c 0x01 0 [x.ra.toNat, x.rb.toNat, x.rd.toNat] → x.u = 0 →
        (x.fn.toNat ≤ 0x10 ∨ (x.fn.toNat ≤ 0x14 ∧ (0x13 ≤ x.fn.toNat ∨ x.rb = 0))) →
        exec (.alu c x) s = .next (ran s c (nextPc s c) (setX s c x.rd (aluFn x.fn.toNat (xreg s c x.ra) (xreg s c x.rb))))) ∧
      ∀ i : IForm,
        (ScalarMay s c 0x02 0 [i.ra.toNat, i.rd.toNat] →
          exec (.addi c i) s = .next (ran s c (nextPc s c) (setX s c i.rd (xreg s c i.ra + i.imm.signExtend 64)))) ∧
        (ScalarMay s c 0x03 0 [i.ra.toNat, i.rd.toNat] →
          exec (.andi c i) s = .next (ran s c (nextPc s c) (setX s c i.rd (xreg s c i.ra &&& i.imm.setWidth 64)))) ∧
        (ScalarMay s c 0x04 0 [i.ra.toNat, i.rd.toNat] →
          exec (.ori c i) s = .next (ran s c (nextPc s c) (setX s c i.rd (xreg s c i.ra ||| i.imm.setWidth 64)))) ∧
        (ScalarMay s c 0x05 0 [i.ra.toNat, i.rd.toNat] →
          exec (.xori c i) s = .next (ran s c (nextPc s c) (setX s c i.rd (xreg s c i.ra ^^^ i.imm.setWidth 64)))) ∧
        (ScalarMay s c 0x06 0 [i.ra.toNat, i.rd.toNat] → i.imm.toNat < 192 →
          exec (.shi c i) s = .next (ran s c (nextPc s c) (setX s c i.rd
            (if i.imm.toNat < 64 then xreg s c i.ra <<< i.imm.toNat
             else if i.imm.toNat < 128 then xreg s c i.ra >>> (i.imm.toNat - 64)
             else (xreg s c i.ra).sshiftRight (i.imm.toNat - 128))))) ∧
        (ScalarMay s c 0x07 0 [i.ra.toNat, i.rd.toNat] → i.ra = 0 →
          exec (.lui c i) s = .next (ran s c (nextPc s c) (setX s c i.rd ((i.imm ++ 0#16).signExtend 64)))) ∧
        (ScalarMay s c 0x08 0 [i.ra.toNat, i.rd.toNat] →
          exec (.slti c i) s = .next (ran s c (nextPc s c) (setX s c i.rd
            (if (xreg s c i.ra).toInt < i.imm.toInt then 1 else 0))))) ∧ (
    ∀ a b : Word,
      aluFn 0x00 a b = a + b ∧ aluFn 0x01 a b = a - b ∧ aluFn 0x02 a b = a &&& b ∧ aluFn 0x03 a b = a ||| b ∧
      aluFn 0x04 a b = a ^^^ b ∧ aluFn 0x05 a b = a <<< (b.toNat % 64) ∧ aluFn 0x06 a b = a >>> (b.toNat % 64) ∧
      aluFn 0x07 a b = a.sshiftRight (b.toNat % 64) ∧
      (aluFn 0x08 a b = if a.toInt < b.toInt then 1 else 0) ∧ (aluFn 0x09 a b = if a.toNat < b.toNat then 1 else 0) ∧
      (aluFn 0x0A a b).toNat = a.toNat * b.toNat % 2 ^ 64 ∧
      (aluFn 0x0B a b).toInt = a.toInt * b.toInt / 2 ^ 64 ∧ (aluFn 0x0C a b).toNat = a.toNat * b.toNat / 2 ^ 64 ∧
      (b = 0 → aluFn 0x0D a b = BitVec.allOnes 64 ∧ aluFn 0x0E a b = BitVec.allOnes 64 ∧ aluFn 0x0F a b = a ∧ aluFn 0x10 a b = a) ∧
      (b ≠ 0 → (aluFn 0x0E a b).toNat = a.toNat / b.toNat ∧ (aluFn 0x10 a b).toNat = a.toNat % b.toNat ∧
        (aluFn 0x0F a b).toInt = Int.tmod a.toInt b.toInt ∧
        (a.toInt = -(2 ^ 63) ∧ b.toInt = -1 → (aluFn 0x0D a b).toInt = -(2 ^ 63) ∧ aluFn 0x0F a b = 0) ∧
        (¬(a.toInt = -(2 ^ 63) ∧ b.toInt = -1) → (aluFn 0x0D a b).toInt = Int.tdiv a.toInt b.toInt)) ∧
      aluFn 0x11 0 b = 64 ∧ (∀ k, k < 64 → a.getLsbD k = true → (∀ j, k < j → a.getLsbD j = false) → (aluFn 0x11 a b).toNat = 63 - k) ∧
      (aluFn 0x12 a b).toNat = ((List.range 64).filter (fun i => a.getLsbD i)).length ∧
      (aluFn 0x13 a b).toInt = min a.toInt b.toInt ∧ (aluFn 0x14 a b).toInt = max a.toInt b.toInt)

/-- Branches and jumps (R140, R141): the PC goes on by 4 or to the target, JAL and JALR write PC + 4. -/
def Obligations.BranchResults : Prop :=
  ∀ (s : State) (c : CellRef),
    (∀ b : BForm,
      let to_ := fun taken : Bool => if taken then pcPlus (cellOf s c).sc.pc b.off.toInt else nextPc s c
      let a := xreg s c b.ra
      let d := xreg s c b.rb
      (ScalarMay s c 0x28 0 [b.ra.toNat, b.rb.toNat] → exec (.beq c b) s = .next (ran s c (to_ (decide (a = d))) (cellOf s c))) ∧
      (ScalarMay s c 0x29 0 [b.ra.toNat, b.rb.toNat] → exec (.bne c b) s = .next (ran s c (to_ (decide (a ≠ d))) (cellOf s c))) ∧
      (ScalarMay s c 0x2A 0 [b.ra.toNat, b.rb.toNat] → exec (.blt c b) s = .next (ran s c (to_ (decide (a.toInt < d.toInt))) (cellOf s c))) ∧
      (ScalarMay s c 0x2B 0 [b.ra.toNat, b.rb.toNat] → exec (.bge c b) s = .next (ran s c (to_ (decide (d.toInt ≤ a.toInt))) (cellOf s c))) ∧
      (ScalarMay s c 0x2C 0 [b.ra.toNat, b.rb.toNat] → exec (.bltu c b) s = .next (ran s c (to_ (decide (a.toNat < d.toNat))) (cellOf s c))) ∧
      (ScalarMay s c 0x2D 0 [b.ra.toNat, b.rb.toNat] → exec (.bgeu c b) s = .next (ran s c (to_ (decide (d.toNat ≤ a.toNat))) (cellOf s c)))) ∧
    (∀ off : BitVec 26, ScalarMay s c 0x2E 0 [31] →
      exec (.jal c off) s = .next (ran s c (pcPlus (cellOf s c).sc.pc off.toInt) (setX s c 31 (BitVec.ofNat 64 (nextPc s c))))) ∧
    (∀ i : IForm, ScalarMay s c 0x2F 0 [i.ra.toNat, i.rd.toNat] →
      exec (.jalr c i) s = .next (ran s c (((xreg s c i.ra + i.imm.signExtend 64) &&& ~~~ 3#64).toNat)
        (setX s c i.rd (BitVec.ofNat 64 (nextPc s c)))))

/-- Local loads (R143): the bytes at ra + IMM16, little-endian, sign- or zero-extended, gathered stores to the row landed
first (R53), words in error that the read met told; a row that does not read good is a fault with code 3 (R59).
Local stores (R143, R51): the low bytes of rd go through the gather buffer. -/
def Obligations.LoadAndStoreResults : Prop :=
  (
    ∀ (s : State) (c : CellRef) (i : IForm) (u o : Nat),
      let k := rowRead (cellOf s c) u (o / 64)
      let at_ := fun (op n : Nat) => ScalarMay s c op 1 [i.ra.toNat, i.rd.toNat] ∧
        localAddr (xreg s c i.ra + i.imm.signExtend 64) n = some (u, o)
      let good := fun (op n : Nat) => at_ op n ∧ RowReads (cellOf s c) u (o / 64)
      let got := fun (op : Nat) (w : Word) => ranTells s c op (nextPc s c) { k with sc := xset k.sc i.rd.toNat w }
      let v := fun n : Nat => ofLe (ownBytes (cellOf s c) u o n)
      (good 0x10 1 → exec (.lb c i) s = .next (got 0x10 ((BitVec.ofNat 8 (v 1)).signExtend 64))) ∧
      (good 0x11 1 → exec (.lbu c i) s = .next (got 0x11 (BitVec.ofNat 64 (v 1)))) ∧
      (good 0x12 2 → exec (.lh c i) s = .next (got 0x12 ((BitVec.ofNat 16 (v 2)).signExtend 64))) ∧
      (good 0x13 2 → exec (.lhu c i) s = .next (got 0x13 (BitVec.ofNat 64 (v 2)))) ∧
      (good 0x14 4 → exec (.lw c i) s = .next (got 0x14 ((BitVec.ofNat 32 (v 4)).signExtend 64))) ∧
      (good 0x15 4 → exec (.lwu c i) s = .next (got 0x15 (BitVec.ofNat 64 (v 4)))) ∧
      (good 0x16 8 → exec (.ld c i) s = .next (got 0x16 (BitVec.ofNat 64 (v 8)))) ∧
      (at_ 0x16 8 → ¬RowReads (cellOf s c) u (o / 64) → exec (.ld c i) s = .next (faultedIn s c 0x16 3 k))) ∧ (
    ∀ (s : State) (c : CellRef) (i : IForm) (u o : Nat),
      let may := fun (op n : Nat) => ScalarMay s c op 2 [i.ra.toNat, i.rd.toNat] ∧
        localAddr (xreg s c i.ra + i.imm.signExtend 64) n = some (u, o)
      let stored := fun op n : Nat =>
        ranTells s c op (nextPc s c) ((cellOf s c).gatherStore u o (toLe (xreg s c i.rd).toNat n))
      (may 0x18 1 → exec (.sb c i) s = .next (stored 0x18 1)) ∧ (may 0x19 2 → exec (.sh c i) s = .next (stored 0x19 2)) ∧
      (may 0x1A 4 → exec (.sw c i) s = .next (stored 0x1A 4)) ∧ (may 0x1B 8 → exec (.sd c i) s = .next (stored 0x1B 8)))

/-- What a store into the gather buffer does, through the owner's reads (R51 to R53): the bytes stored read as stored, every
other byte of the cell's memories reads as before, and the buffer stays well formed: at most four entries, one for a row,
none full. -/
def Obligations.GatherBufferSeesItsOwnStores : Prop :=
  ∀ (k : Cell) (u o : Nat) (bs : List Byte),
    GatherOk k → u ≤ 8 → o + bs.length ≤ unitBytes u → 0 < bs.length → o % 64 + bs.length ≤ 64 →
      GatherOk (k.gatherStore u o bs) ∧
      (∀ i, i < bs.length → ownBytes (k.gatherStore u o bs) u (o + i) 1 = [bs[i]?.getD 0]) ∧
      (∀ v p, v ≤ 8 → p < unitBytes v → ¬(v = u ∧ o ≤ p ∧ p < o + bs.length) →
        ownBytes (k.gatherStore u o bs) v p 1 = ownBytes k v p 1)

/-- Instructions that fault (R139, R140, R143, R144, R151): a PC past the scratchpad, a reserved encoding, a bad or
misaligned address. The core stops and signals a job fault; nothing else of the cell changes.
What waits at issue (R229 to R231): while a fence, an acquire access or an awaited register holds it, a store does
nothing but wait; a full fence holds even an instruction whose encoding or PC is at fault (Table 10-2). -/
def Obligations.ScalarFaultsAndWaits : Prop :=
  (
    ∀ (s : State) (c : CellRef),
      (∀ x : XForm, CellGoes s c → scalarReady (cellOf s c).sc 0x01 = true → 0x30000 ≤ (cellOf s c).sc.pc →
        (fullHeld (cellOf s c).sc = false → exec (.alu c x) s = .next (faulted s c 2)) ∧
        (fullHeld (cellOf s c).sc = true → exec (.alu c x) s = .next (waitsIn s c 0x01 (cellOf s c)))) ∧
      (∀ i : IForm, ScalarMay s c 0x16 1 [i.ra.toNat, i.rd.toNat] →
        localAddr (xreg s c i.ra + i.imm.signExtend 64) 8 = none → exec (.ld c i) s = .next (faulted s c 2)) ∧
      (∀ i : IForm, ScalarMay s c 0x1B 2 [i.ra.toNat, i.rd.toNat] →
        localAddr (xreg s c i.ra + i.imm.signExtend 64) 8 = none → exec (.sd c i) s = .next (faulted s c 2)) ∧
      (∀ x : XForm, ScalarMay s c 0x1C 3 [x.ra.toNat, x.rd.toNat] → x.rb = 0 → x.u = 0 → x.fn.toNat < 8 →
        (xreg s c x.ra).toNat % 8 ≠ 0 → exec (.fld c x) s = .next (faulted s c 2))) ∧ (
    ∀ (s : State) (c : CellRef) (i : IForm),
      CellGoes s c → (cellOf s c).sc.pc < 0x30000 → scalarHeld (cellOf s c).sc 2 [i.ra.toNat, i.rd.toNat] = true →
        (scalarReady (cellOf s c).sc 0x18 = true → exec (.sb c i) s = .next (waitsIn s c 0x18 (cellOf s c))) ∧
        (scalarReady (cellOf s c).sc 0x1B = true → exec (.sd c i) s = .next (waitsIn s c 0x1B (cellOf s c)))) ∧ (
    ∀ (s : State) (c : CellRef) (x : XForm),
      CellGoes s c → (cellOf s c).sc.pc < 0x30000 → fullHeld (cellOf s c).sc = true →
        scalarReady (cellOf s c).sc 0x01 = true → exec (.alu c x) s = .next (waitsIn s c 0x01 (cellOf s c)))

/-- Fences, CSRs and WAITEV (R52, R152, R230): a fence flushes the gather buffer and completes, CSRR reads, CSRW writes FSTAT and
clears bits of EVENTS and ASTAT, WAITEV returns masked events or waits. -/
def Obligations.FenceAndCsrResults : Prop :=
  ∀ (s : State) (c : CellRef),
    (∀ r : FenceForm, ScalarMay s c 0x20 0 [] → r.rd = 0 → r.ra = 0 → r.hi = 0 → (cellOf s c).sc.outst = [] →
      let k := (cellOf s c).flushGather
      let done := ranTells s c 0x20 (nextPc s c) { k with sc := { k.sc with barriers := [] } }
      exec (.fenceRelease c r) s = .next done ∧ exec (.fenceAcquire c r) s = .next done ∧ exec (.fullFence c r) s = .next done) ∧
    (∀ y : SysForm, ScalarMay s c 0x101 0 [y.rd.toNat] → y.ra = 0 → y.u = 0 → y.rb.toNat ≤ 7 →
      exec (.csrr c y) s = .next (ran s c (nextPc s c) (setX s c y.rd
        (if y.rb = 0 then (cellOf s c).sc.events
         else if y.rb = 1 then BitVec.ofNat 64 ((cellOf s c).sc.fstat % 256)
         else if y.rb = 2 then BitVec.ofNat 64 ((cellOf s c).sc.astat % 256)
         else if y.rb = 3 then BitVec.ofNat 64 ((cellOf s c).sc.alen % 8)
         else if y.rb = 4 then BitVec.ofNat 64 (s.m.field c.field).cycle
         else if y.rb = 5 then BitVec.ofNat 64 (c.field.val * 2 ^ 16 + c.lcell.val)
         else if y.rb = 6 then BitVec.ofNat 64 ((cellOf s c).sc.scene % 256)
         else BitVec.ofNat 64 (s.m.get devNum % 4096))))) ∧
    (∀ y : SysForm, ScalarMay s c 0x102 0 [y.ra.toNat] → y.rd = 0 → y.u = 0 → y.rb.toNat ≤ 7 →
      let v := xreg s c y.ra
      let z := (cellOf s c).sc
      exec (.csrw c y) s = .next (ran s c (nextPc s c) { cellOf s c with sc :=
        if y.rb = 0 then { z with events := z.events &&& ~~~ v }
        else if y.rb = 1 then { z with fstat := v.toNat % 256 }
        else if y.rb = 2 then { z with astat := z.astat &&& (255 - v.toNat % 256) } else z })) ∧
    (∀ x : XForm, ScalarMay s c 0x3E 0 [x.ra.toNat, x.rd.toNat] → x.rb = 0 → x.u = 0 → x.fn = 0 →
      let e := (cellOf s c).sc.events &&& xreg s c x.ra
      (xreg s c x.ra = 0 ∨ e ≠ 0 → exec (.waitev c x) s = .next (ran s c (nextPc s c) (setX s c x.rd e))) ∧
      (xreg s c x.ra ≠ 0 → e = 0 → exec (.waitev c x) s = .next (waitsIn s c 0x3E (cellOf s c))))

/-- FLD, FST and FATOM (R144, R229, R231): an aligned access with room and nothing to wait for goes out and is outstanding; with
release the gather buffer is flushed first, with acquire later memory instructions wait for it.
A reply's effect on the core (R144, R229): success writes rd of FLD and FATOM, a failure with NF writes FSTAT and clears rd, a
failure without NF faults with 0x05, and the access is no longer outstanding. -/
def Obligations.FabricAccessesAndReplies : Prop :=
  (
    ∀ (s : State) (c : CellRef) (x : XForm),
      let z := (cellOf s c).sc
      let ready := x.u = 0 ∧ (xreg s c x.ra).toNat % 8 = 0 ∧ z.outst.length < 8 ∧
        (x.fn.getLsbD 1 = true → ∀ a ∈ z.outst, a.kind = 0)
      let out := fun (opn kind rd : Nat) (op : FabOp) =>
        let acc : FabAcc := ⟨z.nextId, kind, z.pc, rd, x.fn.getLsbD 2, x.fn.getLsbD 0, xreg s c x.ra, op, false⟩
        let k := if x.fn.getLsbD 1 then (cellOf s c).flushGather else cellOf s c
        let z' := { k.sc with outst := z.outst ++ [acc], nextId := z.nextId + 1, run := .running, asleep := 0, pc := nextPc s c }
        let t := told s c (opScalar opn) { k with sc := if x.fn.getLsbD 0 then addBarrier z' ⟨[z.nextId], 1⟩ else z' }
        counted { t with m := t.m.sendAcc c.field c.lcell z.nextId } c 3 1
      (ScalarMay s c 0x1C 3 [x.ra.toNat, x.rd.toNat] → ready → x.rb = 0 → x.fn.toNat < 8 →
        exec (.fld c x) s = .next (out 0x1C 0 x.rd.toNat .load)) ∧
      (ScalarMay s c 0x1D 4 [x.ra.toNat, x.rb.toNat] → ready → x.rd = 0 → x.fn.toNat < 8 →
        exec (.fst c x) s = .next (out 0x1D 1 0 (.store (xreg s c x.rb)))) ∧
      (ScalarMay s c 0x1E 4 [x.ra.toNat, x.rb.toNat, x.rd.toNat] → ready → x.fn.toNat < 48 →
        exec (.fatom c x) s = .next (out 0x1E 2 x.rd.toNat (.atomic (x.fn.toNat / 8) (xreg s c x.rb) (xreg s c x.rd))))) ∧ (
    ∀ (s : State) (c : CellRef) (a : FabAcc) (r : Reply),
      s.m.cellRuns c.field c.lcell = true → r ∈ (cellOf s c).replies → r.owner = .scalar c.field c.lcell a.id →
        (∀ q ∈ (cellOf s c).replies, isFlyReply q = false → replyId q = a.id → q = r) →
        s.m.staleReply c.field c.lcell false r.gens = 0 →
        (cellOf s c).sc.outst.find? (fun b => decide (b.id = a.id)) = some a → r.status ≠ 2 →
        let k := { cellOf s c with replies := dropReply (cellOf s c).replies r }
        let z := dropAcc k.sc a.id
        let p := fun (z' : Scalar) => withCell s c { k with sc := z' }
        (r.status = 0 → exec (.fabricReply c a.id) s =
          .next (p (if a.kind = 1 then z else xset z a.rd (BitVec.ofNat 64 (le r.bytes 0 8))))) ∧
        (r.status ≠ 0 → a.nf = true → exec (.fabricReply c a.id) s =
          .next (p (if a.kind = 1 then { z with fstat := r.status } else xset { z with fstat := r.status } a.rd 0))) ∧
        (r.status ≠ 0 → a.nf = false → exec (.fabricReply c a.id) s =
          .next { s with m := (p { z with fstat := r.status, run := .stopped, asleep := 0 }).m.jobFault c.field c.lcell 5 a.pc }))

/-- The matrix cores from the scalar core (R145, R103): MCPUSH of a core that holds a fault gives its code and pushes nothing;
with room it gives 0; MCWAIT gives FAULT once COMPLETED has passed the count; MCRD reads; MCCLR clears FAULT. -/
def Obligations.MatrixSequencing : Prop :=
  ∀ (s : State) (c : CellRef) (x : XForm),
    let u := x.u.toNat
    let m := (cellOf s c).mat u
    x.u.toNat ≤ 5 →
    (ScalarMay s c 0x30 5 [x.ra.toNat, x.rb.toNat, x.rd.toNat] → x.fn = 0 →
      (m.fault ≠ 0 → exec (.mcpush c x) s = .next (ran s c (nextPc s c) (setX s c x.rd (BitVec.ofNat 64 m.fault)))) ∧
      (NoSceneWait s c → m.fault = 0 → ∀ k, matrixPush (cellOf s c) u (xreg s c x.rb ++ xreg s c x.ra) = some k →
        exec (.mcpush c x) s = .next (ran s c (nextPc s c) { k with sc := xset k.sc x.rd.toNat 0 })) ∧
      (m.fault = 0 → matrixPush (cellOf s c) u (xreg s c x.rb ++ xreg s c x.ra) = none →
        exec (.mcpush c x) s = .next (waitsIn s c 0x30 (cellOf s c)))) ∧
    (ScalarMay s c 0x31 0 [x.rd.toNat] → x.ra = 0 → x.rb = 0 → x.fn.toNat ≤ 1 →
      exec (.mcrd c x) s = .next (ran s c (nextPc s c) (setX s c x.rd (if x.fn = 0 then mcStatus m else m.pmask)))) ∧
    (NoSceneWait s c → ScalarMay s c 0x32 0 [] → x.rd = 0 → x.ra = 0 → x.rb = 0 → x.fn = 0 →
      exec (.mcclr c x) s = .next (ran s c (nextPc s c) ((cellOf s c).setMat u { m with fault := 0 }))) ∧
    (ScalarMay s c 0x33 0 [x.ra.toNat, x.rd.toNat] → x.rb = 0 → x.fn = 0 →
      let past := (m.completed + 65536 - (xreg s c x.ra).toNat % 65536) % 65536
      (past < 32768 ∨ m.fault ≠ 0 → exec (.mcwait c x) s =
        .next (ran s c (nextPc s c) (setX s c x.rd (BitVec.ofNat 64 m.fault)))) ∧
      (¬(past < 32768 ∨ m.fault ≠ 0) → exec (.mcwait c x) s = .next (waitsIn s c 0x33 (cellOf s c))))

/-- The vector core from the scalar core (R146, R75, Table 06-6): VSTART starts it, VSETA and SEEDV write its registers once it
is halted without fault, VRD reads, VCLR clears FAULT and, of a halted core, the PC (R126); while it runs or holds a fault the three first
wait. -/
def Obligations.VectorSequencing : Prop :=
  ∀ (s : State) (c : CellRef),
    let v := (cellOf s c).vec
    let idle := v.running = false ∧ v.fault = 0
    (∀ x : XForm,
      (ScalarMay s c 0x34 5 [x.ra.toNat] → x.rd = 0 → x.rb = 0 → x.u = 0 → x.fn = 0 →
        (idle → NoSceneWait s c → exec (.vstart c x) s = .next (ran s c (nextPc s c)
          { cellOf s c with vec := { v with pc := (xreg s c x.ra).toNat % 2 ^ 15, running := true, waiting := 0, held := false } })) ∧
        (¬idle → exec (.vstart c x) s = .next (waitsIn s c 0x34 (cellOf s c)))) ∧
      (ScalarMay s c 0x35 0 [x.ra.toNat] → x.rd = 0 → x.rb = 0 → x.fn = 0 →
        (idle → exec (.vseta c x) s = .next (ran s c (nextPc s c)
          { cellOf s c with vec := aset v x.u.toNat ((xreg s c x.ra).setWidth 16) })) ∧
        (¬idle → exec (.vseta c x) s = .next (waitsIn s c 0x35 (cellOf s c)))) ∧
      (ScalarMay s c 0x36 0 [x.rd.toNat] → x.ra = 0 → x.rb = 0 → x.fn.toNat ≤ 1 →
        exec (.vrd c x) s = .next (ran s c (nextPc s c) (setX s c x.rd
          (if x.fn = 0 then vcStatus v else (aget v x.u.toNat).setWidth 64)))) ∧
      (ScalarMay s c 0x37 0 [] → x.rd = 0 → x.ra = 0 → x.rb = 0 → x.u = 0 → x.fn = 0 →
        exec (.vclr c x) s = .next (ran s c (nextPc s c) { cellOf s c with vec :=
          { v with fault := 0, pc := if v.running then v.pc else 0 } }))) ∧
    (∀ y : SysForm, ScalarMay s c 0x140 0 [y.ra.toNat] → y.rd = 0 → y.rb = 0 → y.u = 0 →
      (idle → exec (.seedv c y) s = .next (ran s c (nextPc s c)
        { cellOf s c with vec := { v with sr := if (xreg s c y.ra).setWidth 32 = 0#32 then 1#32 else (xreg s c y.ra).setWidth 32 } })) ∧
      (¬idle → exec (.seedv c y) s = .next (waitsIn s c 0x140 (cellOf s c))))

/-- FLY and FLYWAIT (R147, R196, R200, R202): a good descriptor takes the lowest free tag and its transfer is put in; one that fails a
check of Table 08-6 ends at once with the check's code; FLYWAIT gives the word of a tag with no transfer. -/
def Obligations.FlyResults : Prop :=
  ∀ (s : State) (c : CellRef) (x : XForm),
    x.rb = 0 → x.u = 0 → x.fn = 0 →
    (∀ u o tag, ScalarMay s c 0x38 5 [x.ra.toNat, x.rd.toNat] → NoSceneWait s c →
      localAddr (xreg s c x.ra) 64 = some (u, o) → RowReads (cellOf s c) u (o / 64) → freeTag (cellOf s c).fly = some tag →
      let k := rowRead (cellOf s c) u (o / 64)
      let d := k.bytes u o 64
      let z := xset k.sc x.rd.toNat (BitVec.ofNat 64 tag)
      (descCode (envOf s c) d = 0 → exec (.fly c x) s = .next (ranTells s c 0x38 (nextPc s c) { k with sc := z, fly := { k.fly with
        transfers := k.fly.transfers ++ [newTransfer k.fly tag d], nextId := k.fly.nextId + 1 } })) ∧
      (descCode (envOf s c) d ≠ 0 → exec (.fly c x) s = .next (ranTells s c 0x38 (nextPc s c)
        { k with sc := setEvent z 14, notes := k.notes ++ [.count 4 1 0 1], fly := { k.fly with
          transfers := k.fly.transfers.filter (fun t => decide (t.tag ≠ tag)),
          words := mset 0 k.fly.words tag (BitVec.ofNat 64 (256 + descCode (envOf s c) d)) } }))) ∧
    (ScalarMay s c 0x38 5 [x.ra.toNat, x.rd.toNat] → (localAddr (xreg s c x.ra) 64).isSome → freeTag (cellOf s c).fly = none →
      exec (.fly c x) s = .next (waitsIn s c 0x38 (cellOf s c))) ∧
    (ScalarMay s c 0x39 0 [x.ra.toNat, x.rd.toNat] →
      let tag := (xreg s c x.ra).toNat % 16
      ((∀ t ∈ (cellOf s c).fly.transfers, t.tag ≠ tag) → exec (.flywait c x) s =
        .next (ran s c (nextPc s c) (setX s c x.rd (mget 0 (cellOf s c).fly.words tag)))) ∧
      ((∃ t ∈ (cellOf s c).fly.transfers, t.tag = tag) → exec (.flywait c x) s = .next (waitsIn s c 0x39 (cellOf s c))))

/-- Asides and stream ports from the scalar core (R148, R156): ASEND completes at once and its message leaves, ARECV gives a queued
message's words with zeros beyond it, or nothing and ALEN 0, TIN gives the head token's words, TOUT puts a token. -/
def Obligations.AsideAndPortResults : Prop :=
  ∀ (s : State) (c : CellRef) (x : XForm),
    let k := cellOf s c
    let ch := x.u.toNat
    (∀ n, n = x.fn.toNat + 1 → x.fn.toNat < 4 → x.ra.toNat + n ≤ 32 → ScalarMay s c 0x3A 5 (xRange x.ra.toNat n) → x.rd = 0 → x.rb = 0 →
      asideOutOn k.rig ch = true →
      let z := { k.sc with run := .running, asleep := 0, pc := nextPc s c }
      let t := withCell s c { k with sc := z }
      let m := t.m.sendAside c.field c.lcell ch ((xRange x.ra.toNat n).map (xget k.sc))
      exec (.asend c x) s = .next (counted { t with m := m } c 3 1)) ∧
    (ScalarMay s c 0x3B 0 (xRange x.rd.toNat 4) → x.ra = 0 → x.rb = 0 → x.rd.toNat ≤ 28 → x.fn.toNat ≤ 1 → asideInOn k.rig ch = true →
      (x.fn = 0 → (k.asideQueue ch).lens = [] →
        exec (.arecv c x) s = .next (ran s c (nextPc s c) { k with sc := { k.sc with alen := 0 } })) ∧
      (∀ n ns, (k.asideQueue ch).lens = n :: ns → 1 ≤ n ∧ n ≤ 4 →
        let o := slotOff ch (k.asideQueue ch).head
        RowReads k 7 (o / 64) →
        let k' := (rowRead k 7 (o / 64)).setAsideQ ch ⟨((k.asideQueue ch).head + 1) % 8, ns⟩
        let word := fun i => if i < n then BitVec.ofNat 64 (ofLe (ownBytes k 7 (o + 8 * i) 8)) else 0
        exec (.arecv c x) s = .next (ranTells s c 0x3B (nextPc s c)
          { k' with sc := { xsetList k'.sc x.rd.toNat [word 0, word 1, word 2, word 3] with alen := n } }))) ∧
    (∀ t q, ScalarMay s c 0x3C 0 (xRange x.rd.toNat 4) → x.ra = 0 → x.rb = 0 → x.fn = 0 → x.rd.toNat ≤ 28 →
      k.rig.portIn 0xC0 ch = .token t q → t.bad = false →
      let w := fun i => BitVec.ofNat 64 (le t.bytes (8 * i) 8)
      exec (.tin c x) s = .next (ranTells s c 0x3C (nextPc s c)
        (tookFrom q { k with sc := xsetList k.sc x.rd.toNat [w 0, w 1, w 2, w 3] }))) ∧
    (∀ q, ScalarMay s c 0x3D 5 (xRange x.ra.toNat 4) → x.rd = 0 → x.rb = 0 → x.fn = 0 → x.ra.toNat ≤ 28 →
      k.rig.portOut 0xC0 ch = .queue q →
      let r := x.ra.toNat
      let t := wordBytes [xget k.sc r, xget k.sc (r + 1), xget k.sc (r + 2), xget k.sc (r + 3)]
      exec (.tout c x) s = .next (ran s c (nextPc s c) { k with rig := k.rig.put q (Token.mk t false 0) }))

/-- SCENEACK and JEND (R52, R149, R150, R169): SCENEACK flushes, acknowledges a request and waits, and once released gives the
scene number; JEND flushes, waits for the cell's units, then ends the cell's part with ra[15:0] and stops the core. -/
def Obligations.SceneAckAndJobEnd : Prop :=
  ∀ (s : State) (c : CellRef) (y : SysForm),
    let k := (cellOf s c).flushGather
    NoSceneWait s c → y.rb = 0 → y.u = 0 →
    (ScalarMay s c 0x110 5 [y.rd.toNat] → y.ra = 0 → k.sc.released = true →
      exec (.sceneack c y) s = .next (ranTells s c 0x3F (nextPc s c)
        { k with sc := xset { k.sc with released := false, acked := false } y.rd.toNat (BitVec.ofNat 64 (k.sc.scene % 256)) })) ∧
    (ScalarMay s c 0x110 5 [y.rd.toNat] → y.ra = 0 → k.sc.released = false → s.m.sceneAsked c.field = false →
      exec (.sceneack c y) s = .next (told s c (opScalar 0x3F) { k with sc := { k.sc with run := .waiting, asleep := 0x110 } })) ∧
    (ScalarMay s c 0x120 5 [y.ra.toNat] → y.rd = 0 → jobDrained k = true →
      let z := { k.sc with run := .stopped, asleep := 0, pc := nextPc s c, ended := true }
      let t := told s c (opScalar 0x3F) { k with sc := z }
      let m := t.m.jendStatus c.field c.lcell ((xreg s c y.ra).toNat % 65536)
      exec (.jend c y) s = .next (counted { t with m := m } c 3 1)) ∧
    (ScalarMay s c 0x120 5 [y.ra.toNat] → y.rd = 0 → jobDrained k = false →
      exec (.jend c y) s = .next (told s c (opScalar 0x3F) { k with sc := { k.sc with run := .waiting, asleep := 0x120 } }))

/-- Events of cell memory (R52, R60, R61): an idle gather entry is flushed, a corrected word is written back and is correctable no
more, a scrub changes no byte.
Requests served at a cell (R59, R212, R144, R401): the oldest request at the cell's fly engine is performed in its turn and answered with
status 0; a store writes its 8 bytes, an atomic returns the old 8 bytes and writes the new, and a compare that fails writes nothing;
a load or an atomic of a row that reads bad is answered with status 5 and writes nothing; a request of an old company generation is
dropped and counted. A write over the crossbar writes its bytes and marks its poisoned words, all of them where its parity failed
twice (log entry 43).
Asides (R38, R148, R222, R224): a message at the delivery port for a channel that the scene enables is queued behind at most seven
others, its words in its slot of the receive area, and the channel's event set; with eight queued it is refused and the refusal goes
back to its sender; one of an old company generation is dropped and counted; a refusal sets ASTAT and the REFUSE event. -/
def Obligations.CellMemoryAndAsides : Prop :=
  (
    ∀ (s : State) (c : CellRef), s.m.cellRuns c.field c.lcell = true →
      let k := cellOf s c
      (∀ i e, k.sc.gather[i]? = some e →
        exec (.gatherTimeoutFlush c false i) s = .next (told s c opStage (k.flushRow e.unit e.row))) ∧
      (∀ i w, k.wbacks[i]? = some w →
        exec (.eccWriteBack c i) s = .next (withCell s c { k with latent := sdel k.latent w, wbacks := sdel k.wbacks w })) ∧
      (∀ (u : Fin 9) (row : BitVec 12), s.m.isSet (cmScrubEn c.field) = true → row.toNat < unitRows u →
        let hit := fun x => memKey u (row.toNat * 64) / 8 ≤ x ∧ x < memKey u (row.toNat * 64) / 8 + 8
        ∃ w n, exec (.scrubRead c u row) s = .next (told s c opStage { k with wbacks := w, notes := n }) ∧
          (∀ x, x ∈ w ↔ x ∈ k.wbacks ∨ (x ∈ k.latent ∧ hit x)) ∧
          (∀ y ∈ n, ∃ x ok, y = .ecc x ok) ∧
          ∀ x ok, Note.ecc x ok ∈ n ↔ hit x ∧ x ∈ (if ok then k.latent else k.poison))) ∧ (
    (
      ∀ (s : State) (c : CellRef) (r : Req) (rest : List Req),
        s.m.cellRuns c.field c.lcell = true → (cellOf s c).inbound = r :: rest → s.m.inboundTurn c.field c.lcell = true →
        let k := { cellOf s c with inbound := rest, fly := { (cellOf s c).fly with lastIn := true } }
        let k0 := k.note (.count 4 3 0 1)
        let u := faUnit r.addr
        let o := faByte r.addr
        let at_ := cellRouter c.field c.lcell
        let old := BitVec.ofNat 64 (ofLe (k.bytes u o 8))
        let ends := fun (st : Nat) (k' : Cell) (bytes : List Byte) =>
          let t := told s c 0x400 k'
          { t with m := t.m.answer at_.1 at_.2 ⟨r.owner, st, bytes, [], r.gens⟩ r.co }
        let p := k0.readRows 9 u (o / 64) 1
        (s.m.staleReq r = true → exec (.cellMemoryRequest c) s =
          let t := withCell s c { s.m.cell c.field c.lcell with inbound := rest, fly := k.fly }
          .next { t with m := t.m.addSat (gsStale r.co) 1 }) ∧
        (s.m.staleReq r = false → r.ledger = none →
          (∀ v, r.op = .store v → exec (.cellMemoryRequest c) s = .next (ends 0 (crossWrite k0 u o (toLe v.toNat 8) []) [])) ∧
          (∀ bs bad, r.op = .write bs bad → exec (.cellMemoryRequest c) s = .next (ends 0 (crossWrite k0 u o bs bad) [])) ∧
          (∀ n, r.op = .read n → (k0.readRows 9 u (o / 64) (n / 64)).2 = false → exec (.cellMemoryRequest c) s =
            .next (ends 0 (k0.readRows 9 u (o / 64) (n / 64)).1 (k.bytes u (o / 64 * 64) (64 * (n / 64))))) ∧
          (r.op = .load → exec (.cellMemoryRequest c) s =
            .next (if p.2 then ends 5 p.1 [] else ends 0 p.1 (k.bytes u o 8))) ∧
          (∀ op v cmp, r.op = .atomic op v cmp →
            let new := if op = 0 then some v else if op = 1 then some (old + v) else if op = 2 then some (old &&& v)
              else if op = 3 then some (old ||| v) else if op = 4 then some (if old.toInt < v.toInt then v else old)
              else if old = cmp then some v else none
            exec (.cellMemoryRequest c) s = .next (if p.2 then ends 5 p.1 [] else
              ends 0 (match new with | some w => crossWrite p.1 u o (toLe w.toNat 8) [] | none => p.1) (toLe old.toNat 8)))) ∧
        ∀ (k : Cell) (u o : Nat) (bs : List Byte) (bad : List Nat), (crossWrite k u o bs bad).mem = (k.write u o bs).mem ∧
          (crossWrite k u o bs bad).poison =
            ((k.write u o bs).mark u o (if k.xbarParity ≤ 1 then bad else List.range (bs.length / 8))).poison) ∧ (
      ∀ (s : State) (c : CellRef), s.m.cellRuns c.field c.lcell = true →
        let k := cellOf s c
        (∀ ch ws bad sf sl sc co cg rest, k.asides = .aside ch ws bad sf sl sc co cg :: rest →
          let q := k.asideQueue ch
          let o := 0x2F800 + ch * 0x100 + (q.head + q.lens.length) % 8 * 0x20
          (cg = s.m.get (gsCgen co) → (s.m.co co).reset = none →
            (q.lens.length < 8 → asideInOn k.rig ch = true → exec (.asideDelivery c) s = .next (told s c 0x13A
              { (crossWrite { k with asides := rest } 7 o (wordBytes ws ++ List.replicate (32 - (wordBytes ws).length) 0) bad).setAsideQ ch
                  ⟨q.head, q.lens ++ [ws.length]⟩ with sc := { k.sc with events := k.sc.events ||| (1 <<< (16 + ch)) } })) ∧
            (8 ≤ q.lens.length → exec (.asideDelivery c) s =
              let t := withCell s c { k with asides := rest }
              let src := cellRouter c.field c.lcell
              let dst := cellRouter sf sl
              .next { t with m := t.m.atRouter src.1 src.2 ⟨true, true, 1, dst.1, dst.2, .cell sf sl, co, .refusal sc cg⟩ })) ∧
          (cg ≠ s.m.get (gsCgen co) → exec (.asideDelivery c) s =
            let t := withCell s c { s.m.cell c.field c.lcell with asides := rest }
            .next { t with m := t.m.addSat (gsStale co) 1 })) ∧
        (∀ ch cg rest, k.refusals = .refusal ch cg :: rest → cg = s.m.get (gsCgen ((s.m.coOf c.field).getD 0)) →
          (s.m.co ((s.m.coOf c.field).getD 0)).reset = none → exec (.asideRefusal c) s = .next (withCell (counted s c 3 4) c { k with
            refusals := rest, sc := { k.sc with astat := k.sc.astat ||| 2 ^ ch, events := k.sc.events ||| 2 ^ 15 } }))))

/-! ### The matrix cores (04, 05) -/

/-- The control commands (R75, R93, R95, R100): at its begin ZACC makes the accumulators it selects +0 with their checksum lines, and leaves
the others, SEED writes SR_STATE (a zero seed as 1), SETMASK and SYNC change nothing of the core but its queue; at its completion
SETMASK writes PMASK. -/
def Obligations.MatrixControlCommands : Prop :=
  ∀ (s : State) (c : CellRef) (u : Fin 6) (d : Word128),
    CellGoes s c →
    let k := cellOf s c
    let m := k.mat u
    let begun := { m with queue := m.queue.tail, begun := m.begun ++ [⟨d, 2, false, false, 0, false, [], []⟩] }
    (readyHead k u 0x0A = some d → ∃ x, exec (.zacc c u) s = .next (withCell s c (k.setMat u x)) ∧
      x.queue = m.queue.tail ∧ x.begun = begun.begun ∧ x.sr = m.sr ∧ x.pmask = m.pmask ∧ x.completed = m.completed ∧
      ∀ a, a < 4 → (if d.getLsbD (116 + a) then x.tile a = List.replicate 256 0 ∧ x.suspect.testBit a = false ∧
          (∀ kind, kind < 4 → x.lineSet a kind = List.replicate 16 Val.zero)
        else x.tile a = m.tile a ∧ ∀ kind, kind < 4 → x.lineSet a kind = m.lineSet a kind)) ∧
    (readyHead k u 0x0C = some d → exec (.seed c u) s = .next (withCell s c (k.setMat u
      { begun with sr := if d.setWidth 32 = 0#32 then 1#32 else d.setWidth 32 }))) ∧
    (readyHead k u 0x0D = some d → exec (.setmask c u) s = .next (withCell s c (k.setMat u begun))) ∧
    (∀ b, NoSceneWait s c → m.begun = [b] → b.done = false → b.fc = 0 → b.cmd = d → cOp d = 0x0D → m.queue = [] →
      exec (.matrixCommandComplete c u 0) s = .next (countedAt (withCell s c (k.setMat u
        { m with begun := [], completed := (m.completed + 1) % 65536, pmask := d.setWidth 64 })) c 1 1 u 1)) ∧
    (readyHead k u 0x0F = some d → exec (.sync c u) s = .next (withCell s c (k.setMat u begun)))

/-- MMA, MMASP and PREVIEW begin (R96, R104, R116, R119, R125): the command moves from the queue to the begun ones. A masked-off MMA or
MMASP leaves ACC as it is, or +0 with ZERO, and reads nothing; one whose accumulator has a parity error makes it canonical NaN and
ends with 0x04; otherwise the blocks that its operands give are added one after another to ACC, which starts at +0 with ZERO: each
element of ACC takes each block as R81 says. A read that fails ends the command with 0x03 and a metadata check with its code, ACC
then canonical NaN; PREVIEW's outcome is whether its largest sum reaches the threshold. -/
def Obligations.MatrixArrayBegins : Prop :=
  (
    ∀ (s : State) (c : CellRef) (u : Fin 6) (d : Word128),
      CellGoes s c →
      let k := cellOf s c
      let m := k.mat u
      let a := cAcc d
      let after := fun (op : Nat) (k' : Cell) (b : Begun) (x : Matrix) (ns : List Note) => told s c (opMatrix op)
        { k'.setMat u { x with queue := m.queue.tail, begun := m.begun ++ [b] } with notes := k'.notes ++ ns }
      let start := if cZero d then m.zeroAcc a else m
      let k0 := if cZero d then k.setMat u start else k
      let failed := fun (op : Nat) (k' : Cell) (code : Nat) =>
        let x := start.setTile a (List.replicate 256 0x7FC00000)
        after op k' ⟨d, 0, false, false, code, false, [], []⟩
          (if 16 ≤ code then { x.setLines a (List.replicate 64 Val.zero) with suspect := m.suspect } else x) []
      let parity := fun (op : Nat) =>
        after op k0 ⟨d, 0, false, false, 4, false, [], []⟩ (nanAccs start (2 ^ a)) [.accum u]
      let skips := fun (op : Nat) => after op k ⟨d, 0, true, false, 0, false, [], []⟩ start [.count 1 3 u 1]
      let adds := fun (op : Nat) (k' : Cell) (y : ArrayAcc) (n : Nat) =>
        after op k' ⟨d, 0, false, false, 0, false, y.tile, y.lines⟩ (start.setArrayAcc a y) [.count 1 2 u n]
      (readyHead k u 0x01 = some d → exec (.mma c u) s = .next (
        if willSkip m d then skips 0x01 else if parityBad start (2 ^ a) then parity 0x01
        else match (mmaBlocks u d (cKb d + 1) 0 (start.arrayAcc a)).run k0 with
          | (.ok y, k') => adds 0x01 k' y (cKb d + 1)
          | (.error code, k') => failed 0x01 k' code)) ∧
      (readyHead k u 0x03 = some d → exec (.mmasp c u) s = .next (
        if willSkip m d then skips 0x03 else if parityBad start (2 ^ a) then parity 0x03
        else match (mmaspRun u d (start.arrayAcc a)).run k0 with
          | (.ok (y, n), k') => adds 0x03 k' y n
          | (.error code, k') => failed 0x03 k' code)) ∧
      (readyHead k u 0x04 = some d → exec (.preview c u) s = .next (
        match (sketchSums u d (cKb d + 1) 0 (List.replicate 1024 0)).run k with
          | (.ok sums, k') => after 0x04 k' ⟨d, 0, false, false, 0, keeps (sums.foldl Nat.max 0) (cThresh d), [], []⟩ m []
          | (.error code, k') => after 0x04 k' ⟨d, 0, false, false, code, false, [], []⟩ m []))) ∧ (
    ∀ (f : Int) (y : ArrayAcc) (a b : OperBlock) (i j : Nat), i < 16 → j < 16 → y.tile.length = 256 →
      (arrayBlock f y a b).tile[i * 16 + j]? = some (accumulateBlock f ((y.tile[i * 16 + j]?).getD 0)
        (a.lane i) (b.lane j) (a.scale i) (b.scale j)))

/-- LDACC and STACC begin (R94, R98, R99, R102): LDACC fills ACC with the flushed rows, turned with ORIENT, its lines
the tile's sums and zero bounds; a BF16 or FP32 STACC of one
accumulator writes its rows at DST and leaves every accumulator as it is; a crossbar transfer of it that fails twice ends it with
0x03, with no later row written. -/
def Obligations.MatrixTransferBegins : Prop :=
  ∀ (s : State) (c : CellRef) (u : Fin 6) (d : Word128),
    CellGoes s c →
    let k := cellOf s c
    let m := k.mat u
    (readyHead k u 0x08 = some d →
      ∀ bs k', (rdBytes u (cSrcA d / 4096) (cSrcA d % 4096 * 64) 1024).run k = (.ok bs, k') →
        ∃ x, exec (.ldacc c u) s = .next (told s c (opMatrix 0x08) (k'.setMat u x)) ∧
          x.queue = m.queue.tail ∧ x.begun = m.begun ++ [⟨d, 1, false, false, 0, false, [], []⟩] ∧ x.pmask = m.pmask ∧ x.sr = m.sr ∧
          (∀ i j, i < 16 → j < 16 → (x.tile (cAcc d))[i * 16 + j]? = some (flush32 (BitVec.ofNat 32
            (le bs (4 * (if cOrient d then j * 16 + i else i * 16 + j)) 4)))) ∧
          (let el := fun i j => ofFp32 (((x.tile (cAcc d))[i * 16 + j]?).getD 0)
           x.lineSet (cAcc d) 0 = (List.range 16).map (fun j => near64 (sumVals ((List.range 16).map (fun i => el i j)))) ∧
           x.lineSet (cAcc d) 1 = (List.range 16).map (fun i => near64 (sumVals ((List.range 16).map (fun j => el i j)))) ∧
           x.lineSet (cAcc d) 2 = List.replicate 16 Val.zero ∧ x.lineSet (cAcc d) 3 = List.replicate 16 Val.zero) ∧
          ∀ a, a < 4 → a ≠ cAcc d → x.tile a = m.tile a) ∧
    (readyHead k u 0x09 = some d → cPair d = false → parityBad m (2 ^ cAcc d) = false →
      ∀ n, staccShape (cFmtA d) false = some n →
        let draws := blockDraws (if cFmtA d = 0 then 0 else cRnd d) 256 m.sr
        let lanes := (List.range 16).map (storeLane d [m.tile (cAcc d)] draws.1)
        let w := writeRows u k (cSrcA d / 4096) (cSrcA d % 4096) (lanes.flatMap (·.1)) n.2
        exec (.stacc c u) s = .next (told s c (opMatrix 0x09) (w.1.setMat u { m with
          queue := m.queue.tail, sr := draws.2
          begun := m.begun ++ [⟨d, 1, false, false, if w.2 then 0 else 3, false, [], []⟩] }))) ∧
    ∀ (k : Cell) (own v row n : Nat) (bs : List Byte), bs.length = 64 * n →
      (k.xbarParity = 0 ∨ v = own →
        (writeRows own k v row bs n).2 = true ∧ (writeRows own k v row bs n).1.mem = writeBytes k.mem (memKey v (row * 64)) bs) ∧
      (2 ≤ k.xbarParity → v ≠ own → 0 < n →
        writeRows own k v row bs n = ({ k with xbarParity := k.xbarParity - 2, notes := k.notes ++ [.xbar false] }, false))

/-- Completion (R93, R97, R100, R102, R103): the command in front, with nothing behind it, is counted in COMPLETED, and PREVIEW's or
SETMASK's new PMASK takes effect; one that ends in a fault is not counted: FAULT holds its code, the queue is discarded and
the core's MFAULT event is set.
A check trip (R105): a line that trips sets the accumulator's SUSPECT bit and the core's MTRIP event and writes one record
each; without one, or with CHK_EN 0, nothing is set. -/
def Obligations.MatrixCompletesAndChecks : Prop :=
  (
    ∀ (s : State) (c : CellRef) (u : Fin 6) (b : Begun),
      s.m.cellRuns c.field c.lcell = true → NoSceneWait s c →
      let k := cellOf s c
      let m := k.mat u
      let checked := isMma b.cmd = true ∧ b.skipped = false ∧ (envOf s c).matrixCtrl.getLsbD 0 = true
      m.begun = [b] → b.done = false →
      (b.fc = 0 → m.queue = [] → ¬checked → exec (.matrixCommandComplete c u 0) s = .next (countedAt (withCell s c (k.setMat u
        { m with begun := [], completed := (m.completed + 1) % 65536, pmask := applyMask m.pmask b })) c 1 1 u 1)) ∧
      (b.fc = 0 → m.queue = [] → checked → exec (.matrixCommandComplete c u 0) s =
        let k1 := matrixCheck (envOf s c) (k.setMat u { m with begun := [{ b with done := true }] }) u b
        .next (countedAt (told s c (opMatrix (cOp b.cmd)) (k1.setMat u
          { k1.mat u with begun := [], completed := (m.completed + 1) % 65536 })) c 1 1 u 1)) ∧
      (b.fc ≠ 0 → exec (.matrixCommandComplete c u 0) s = .next (withCell s c
        { k.setMat u { m with begun := [], queue := [], fault := b.fc } with sc := setEvent k.sc u }))) ∧ (
    ∀ (e : Env) (k : Cell) (u : Nat) (b : Begun), u < 6 →
      let a := cAcc b.cmd
      let lines := checkLines (bits e.matrixCtrl 11 8) b.result
      let k1 := matrixCheck e k u b
      (e.matrixCtrl.getLsbD 0 = false → k1 = k) ∧
      (e.matrixCtrl.getLsbD 0 = true → some true ∈ lines →
        (k1.mat u).suspect.testBit a = true ∧ k1.sc.events.getLsbD (6 + u) = true ∧
        (k1.notes.filter (fun n => decide (n = Note.trip u a))).length =
          (k.notes.filter (fun n => decide (n = Note.trip u a))).length + (lines.filter (fun r => decide (r = some true))).length) ∧
      (e.matrixCtrl.getLsbD 0 = true → some true ∉ lines → k1.mat u = k.mat u ∧ k1.sc = k.sc ∧ k1.mem = k.mem))

/-! ### The vector core (06) -/

/-- Elementwise arithmetic (R75, R130, R131): each active lane of vd is the exact result of the operation on the flushed inputs,
rounded once in mode RND, in FP32 or in each half in packed BF16; a draw is taken for every lane. -/
def Obligations.VectorArithmetic : Prop :=
  ∀ (s : State) (c : CellRef) (r : VRForm),
    let ok := fun (op : Nat) (vb vc rnd both : Bool) =>
      VecMay s c op ∧ RFields r vb vc rnd false true ∧ r.sub = 0 ∧ r.fmt.toNat ≤ (if both then 1 else 0)
    (ok 0x10 true false true true → exec (.vadd c r) s = .next (vputFloat s c r (fun a b _ => (a.add b, false)))) ∧
    (ok 0x11 true false true true → exec (.vsub c r) s = .next (vputFloat s c r (fun a b _ => (a.add b.neg, false)))) ∧
    (ok 0x12 true false true true → exec (.vmul c r) s = .next (vputFloat s c r (fun a b _ => (a.mul b, false)))) ∧
    (ok 0x13 true true true true → exec (.vfma c r) s = .next (vputFloat s c r (fun a b d => ((a.mul b).add d, false)))) ∧
    (ok 0x14 true true true true → exec (.vfnma c r) s = .next (vputFloat s c r (fun a b d => (d.add (a.mul b).neg, false)))) ∧
    (ok 0x15 true false false true → exec (.vmin c r) s = .next (vputFloat s c r (fun a b _ => (a.min b, false)))) ∧
    (ok 0x16 true false false true → exec (.vmax c r) s = .next (vputFloat s c r (fun a b _ => (a.max b, false)))) ∧
    (ok 0x17 true false true false → exec (.vdiv c r) s = .next (vputFp32 s c r (fun a b _ => a.div b))) ∧
    (ok 0x18 false false true false → exec (.vsqrt c r) s = .next (vputFp32 s c r (fun a _ _ => a.sqrt))) ∧
    (ok 0x19 false false true false → exec (.vrsqrt c r) s = .next (vputFp32 s c r (fun a _ _ => a.rsqrt))) ∧
    (ok 0x1A false false true false → exec (.vexp2 c r) s = .next (vputFp32 s c r (fun a _ _ => a.exp2))) ∧
    (ok 0x1B false false true false → exec (.vlog2 c r) s = .next (vputFp32 s c r (fun a _ _ => a.log2))) ∧
    (ok 0x1C false false false true → exec (.vabs c r) s = .next (vputFloat s c r (fun a _ _ => (a.abs, false)))) ∧
    (ok 0x1D false false false true → exec (.vneg c r) s = .next (vputFloat s c r (fun a _ _ => (a.neg, false))))

/-- Results on special inputs (R83, Table 03-12), as FP32 codes: NaN, opposed infinities, infinity times zero, exact zeros, division
by zero, roots of zeros and of negative numbers, minimum and maximum of zeros, conversion to int32. -/
def Obligations.SpecialInputs : Prop :=
  ∀ (x y z : Word32) (mode draw : Nat),
    let a := ofFp32 x
    let b := ofFp32 y
    let nan := fun v : Val => toFp32 mode draw v false = 0x7FC00000
    (a = .nan ∨ b = .nan → nan (a.add b) ∧ nan (a.add b.neg) ∧ nan (a.mul b) ∧ nan ((a.mul b).add (ofFp32 z)) ∧
      nan (a.min b) ∧ nan (a.max b)) ∧
    (x = 0x7F800000 → y = 0xFF800000 → nan (a.add b)) ∧
    (∀ n, a = .inf n → b.isZero = true → nan (a.mul b) ∧ nan (b.mul a)) ∧
    (x = 0 → y = 0x80000000 → toFp32 mode draw (a.add b) false = 0 ∧ toFp32 mode draw (b.add a) false = 0 ∧
      toFp32 mode draw (a.min b) false = 0x80000000 ∧ toFp32 mode draw (b.min a) false = 0x80000000 ∧
      toFp32 mode draw (a.max b) false = 0 ∧ toFp32 mode draw (b.max a) false = 0) ∧
    (∀ n m e, a = .fin n m e → m ≠ 0 → toFp32 mode draw (a.add a.neg) false = 0 ∧
      (b.isZero = true → a.div b = (.inf (n != b.isNeg), false)) ∧
      (n = true → a.sqrt = (.nan, false) ∧ a.rsqrt = (.nan, false) ∧ a.log2 = (.nan, false))) ∧
    (a.isZero = true → (b.isZero = true → a.div b = (.nan, false)) ∧ a.sqrt = (a, false) ∧ a.rsqrt = (.inf a.isNeg, false) ∧
      a.log2 = (.inf true, false)) ∧
    (∀ n k, a = .inf n → b = .inf k → a.div b = (.nan, false)) ∧
    (x = 0x7F800000 → a.rsqrt = (Val.zero, false) ∧ a.exp2 = (.inf false, false) ∧ a.log2 = (.inf false, false)) ∧
    (x = 0xFF800000 → a.exp2 = (Val.zero, false)) ∧
    (a = .nan → toInt32 mode draw a = 0) ∧
    (a = .inf false → toInt32 mode draw a = 0x7FFFFFFF) ∧ (a = .inf true → toInt32 mode draw a = 0x80000000) ∧
    (∀ n m e, a = .fin n m e → 2 ^ 31 ≤ (m : Int) * 2 ^ e.toNat → 0 ≤ e →
      toInt32 mode draw a = if n then 0x80000000 else 0x7FFFFFFF)

/-- Compares (R83, R130, R131): bit l of KD is the predicate on lane l; with a NaN every predicate is false but NE. -/
def Obligations.VectorCompares : Prop :=
  ∀ (s : State) (c : CellRef) (r : VRForm),
    (VecMay s c 0x20 → RFields r (decide (r.sub.toNat < 6)) false false false true → r.fmt = 0 → r.vd.toNat < 8 →
      MaskResult s c r (.vcmp c r) (fun l =>
        let a := ofFp32 (vlane s c r.va l)
        let b := ofFp32 (vlane s c r.vb l)
        let num := !a.isNan && !b.isNan
        let eq := num && !a.lt b && !b.lt a
        if r.sub = 0 then eq else if r.sub = 1 then !eq
        else if r.sub = 2 then num && a.lt b else if r.sub = 3 then num && (a.lt b || eq)
        else if r.sub = 4 then num && b.lt a else if r.sub = 5 then num && (b.lt a || eq)
        else if r.sub = 6 then a.isNan else decide (a = .inf false ∨ a = .inf true))) ∧
    (VecMay s c 0x21 → RFields r true false false false true → r.fmt = 0 → r.vd.toNat < 8 → r.sub.toNat ≤ 5 →
      MaskResult s c r (.vicmp c r) (fun l =>
        let a := (vlane s c r.va l).toInt
        let b := (vlane s c r.vb l).toInt
        decide (if r.sub = 0 then a = b else if r.sub = 1 then a ≠ b else if r.sub = 2 then a < b
          else if r.sub = 3 then a ≤ b else if r.sub = 4 then b < a else b ≤ a)))

/-- Reductions (R132): the fixed tree over a row, a column or the whole tile; a node with one active operand passes it on, one
without passes nothing, and with no active operand the result is +0, -infinity or +infinity; it is written to every lane of its row,
its column or the tile (log entry 34).
Reductions in packed BF16 (R132): the halves are reduced apart, the low halves of the result from the low halves of va, the
high from the high. -/
def Obligations.VectorReductions : Prop :=
  (
    ∀ (s : State) (c : CellRef) (r : VRForm),
      RFields r false false (decide (r.rnd ≠ 3)) false true → r.sub.toNat ≤ 2 → r.fmt = 0 →
      let x := fun l => if laneOn s c r l then some (toFp32 0 0 (ofFp32 (vlane s c r.va l)) false) else none
      let join := fun (f : Val → Val → Val) (a b : Option Word32) =>
        match a, b with
        | some a, some b => some (toFp32 r.rnd.toNat 0 (f (ofFp32 a) (ofFp32 b)) false)
        | some a, none => some a
        | none, b => b
      let eight := fun (f : Val → Val → Val) (y : Nat → Option Word32) =>
        let j := join f
        j (j (j (y 0) (y 1)) (j (y 2) (y 3))) (j (j (y 4) (y 5)) (j (y 6) (y 7)))
      let row := fun (f : Val → Val → Val) (i : Nat) => eight f (fun j => x (8 * i + j))
      let res := fun (f : Val → Val → Val) (l : Nat) =>
        if r.sub = 0 then row f (l / 8) else if r.sub = 1 then eight f (fun i => x (8 * i + l % 8)) else eight f (row f)
      (VecMay s c 0x28 → exec (.vrsum c r) s = .next (vall s c r (fun l => (res Val.add l).getD 0))) ∧
      (VecMay s c 0x29 → r.rnd = 0 → exec (.vrmax c r) s = .next (vall s c r (fun l => (res Val.max l).getD 0xFF800000))) ∧
      (VecMay s c 0x2A → r.rnd = 0 → exec (.vrmin c r) s = .next (vall s c r (fun l => (res Val.min l).getD 0x7F800000)))) ∧ (
    ∀ (s : State) (c : CellRef) (r : VRForm) (op : Nat) (i : Instr) (f : Val → Val → Val) (none_ : Half),
      (op = 0x28 ∧ i = .vrsum c r ∧ f = Val.add ∧ none_ = 0) ∨
        (r.rnd = 0 ∧ ((op = 0x29 ∧ i = .vrmax c r ∧ f = Val.max ∧ none_ = 0xFF80) ∨
          (op = 0x2A ∧ i = .vrmin c r ∧ f = Val.min ∧ none_ = 0x7F80))) →
      VecMay s c op → RFields r false false (decide (r.rnd ≠ 3)) false true → r.sub.toNat ≤ 2 → r.fmt = 1 →
      let x := fun (h l : Nat) => if laneOn s c r l then some (toBf16 0 0 (ofBf16 (halfOf (vlane s c r.va l) h)) false) else none
      let j := fun (a b : Option Half) =>
        match a, b with
        | some a, some b => some (toBf16 r.rnd.toNat 0 (f (ofBf16 a) (ofBf16 b)) false)
        | some a, none => some a
        | none, b => b
      let eight := fun (y : Nat → Option Half) => j (j (j (y 0) (y 1)) (j (y 2) (y 3))) (j (j (y 4) (y 5)) (j (y 6) (y 7)))
      let row := fun (h i : Nat) => eight (fun k => x h (8 * i + k))
      let res := fun (h l : Nat) => (if r.sub = 0 then row h (l / 8) else if r.sub = 1 then eight (fun i => x h (8 * i + l % 8))
        else eight (row h)).getD none_
      exec i s = .next (vall s c r (fun l => res 1 l ++ res 0 l)))

/-- Conversions (R83, R133): VCVT narrows va into one half of vd or widens one half of va, VF2I and VI2F convert each lane. -/
def Obligations.VectorConversions : Prop :=
  ∀ (s : State) (c : CellRef) (r : VRForm),
    let v := (cellOf s c).vec
    let a := fun l => vlane s c r.va l
    let d := blockDraws r.rnd.toNat 64 v.sr
    let draw := fun l => (d.1[l]?).getD 0
    let h := r.sub.toNat
    (VecMay s c 0x30 → RFields r false false true false true → h ≤ 1 → r.fmt = 1 →
      let half := fun k => toBf16 r.rnd.toNat (draw k) (ofFp32 (a k)) false
      exec (.vcvt c r) s = .next (vran s c (vnext s c) { cellOf s c with vec :=
        { vset v r.vd.toNat ((List.range 64).map (fun l =>
            if l / 32 = h then
              (if laneOn s c r l then half (2 * (l % 32) + 1) ++ half (2 * (l % 32)) else if r.mz = 1 then 0 else vlane s c r.vd l)
            else vlane s c r.vd l)) with sr := d.2 } })) ∧
    (VecMay s c 0x30 → RFields r false false false false true → h ≤ 1 → r.fmt = 0 →
      exec (.vcvt c r) s = .next (vputInt s c r (fun l =>
        toFp32 0 0 (ofBf16 (halfOf (a (32 * h + l / 2)) (l % 2))) false))) ∧
    (VecMay s c 0x31 → RFields r false false true false true → h = 0 → r.fmt = 0 →
      exec (.vf2i c r) s = .next (vput s c r d.2 (fun l => toInt32 r.rnd.toNat (draw l) (ofFp32 (a l))))) ∧
    (VecMay s c 0x32 → RFields r false false true false true → h = 0 → r.fmt = 0 →
      exec (.vi2f c r) s = .next (vput s c r d.2 (fun l =>
        toFp32 r.rnd.toNat (draw l) (.fin (decide ((a l).toInt < 0)) (a l).toInt.natAbs 0) false)))

/-- Conversion to and from MX blocks and sketch codes (R77 to R80, R123, R133, R134): the payload of block h at byte h*P and its scale
code at byte 192 + h, zeros elsewhere; each NaN block that VQMX writes counted; VDQMX reads the same layout; VSKETCH writes
16 bytes of codes and zeros. -/
def Obligations.VectorBlocks : Prop :=
  ∀ (s : State) (c : CellRef) (r : VRForm),
    let v := (cellOf s c).vec
    let f := r.fmt.toNat
    let p := payBytes f
    let ls := vget v r.va.toNat
    let img := laneBytes ls
    let put := fun (bs : List Byte) (sr : Word32) => { cellOf s c with vec := { vset v r.vd.toNat (bytesLanes bs) with sr := sr } }
    (VecMay s c 0x33 → RFields r false false true (decide (r.sub = 1)) false → r.sub.toNat ≤ 1 → 2 ≤ f ∧ f ≤ 6 →
      let d := blockDraws r.rnd.toNat 64 v.sr
      let blk := fun h => toMxDraws f r.rnd.toNat (if r.sub = 1 then some r.imm8.toNat else none)
        (((ls.drop (32 * h)).take 32).map ofFp32) ((d.1.drop (32 * h)).take 32)
      let bytes := toLe (blk 0).2 p ++ toLe (blk 1).2 p ++ List.replicate (192 - 2 * p) 0 ++
        [BitVec.ofNat 8 (blk 0).1, BitVec.ofNat 8 (blk 1).1] ++ List.replicate 62 0
      let nans := (if (blk 0).1 = 255 then 1 else 0) + (if (blk 1).1 = 255 then 1 else 0)
      let s' := if nans = 0 then s else countedAt s c 2 2 0 nans
      exec (.vqmx c r) s = .next (counted (withCell s' c { put bytes d.2 with
        vec := { (put bytes d.2).vec with pc := vnext s c, waiting := 0, held := false } }) c 2 1)) ∧
    (VecMay s c 0x34 → RFields r false false false false false → r.sub = 0 → 2 ≤ f ∧ f ≤ 8 →
      let blk := fun h => mxToFp32 f (le img (h * p) p) (le img (192 + h) 1)
      exec (.vdqmx c r) s = .next (vran s c (vnext s c) { cellOf s c with vec := vset v r.vd.toNat (blk 0 ++ blk 1) })) ∧
    (VecMay s c 0x35 → RFields r false false false true true → r.sub = 0 → f = 0 ∨ (2 ≤ f ∧ f ≤ 6) →
      let blk := fun h => (blockVals f (le img (h * p) p) (le img (192 + h) 1)).map
        (fun x => x.scale ((le img (192 + h) 1 : Int) - 127))
      let vals := if f = 0 then ls.map ofFp32 else blk 0 ++ blk 1
      let old := fun l => le (laneBytes (vget v r.vd.toNat)) 0 16 / 4 ^ l % 4
      let code := fun l => if laneOn s c r l then sketchCode r.imm8.toInt ((vals[l]?).getD Val.zero)
        else if r.mz = 1 then 0 else old l
      exec (.vsketch c r) s = .next (vran s c (vnext s c)
        (put (toLe (packElems 2 ((List.range 64).map code)) 16 ++ List.replicate 240 0) v.sr)))

/-- Integer and move instructions (R131): wrapping arithmetic, bitwise functions, shifts by vb mod 32, signed minimum and
maximum; VPERM, VTRANS, VBCAST and VSPLAT choose lanes.
Mask instructions (R130, R131): KLOGIC's functions bit by bit, KPOP's count in every lane, KFROMV and VFROMK between lanes and
mask bits. -/
def Obligations.VectorIntegersMovesAndMasks : Prop :=
  (
    ∀ (s : State) (c : CellRef) (r : VRForm),
      let a := fun l => vlane s c r.va l
      let b := fun l => vlane s c r.vb l
      let ok := fun (op : Nat) (vb : Bool) => VecMay s c op ∧ RFields r vb false false false true ∧ r.sub = 0 ∧ r.fmt = 0
      (ok 0x40 true → exec (.viadd c r) s = .next (vputInt s c r (fun l => a l + b l))) ∧
      (ok 0x41 true → exec (.visub c r) s = .next (vputInt s c r (fun l => a l - b l))) ∧
      (ok 0x42 true → exec (.vimul c r) s = .next (vputInt s c r (fun l => a l * b l))) ∧
      (ok 0x43 true → exec (.vand c r) s = .next (vputInt s c r (fun l => a l &&& b l))) ∧
      (ok 0x44 true → exec (.vor c r) s = .next (vputInt s c r (fun l => a l ||| b l))) ∧
      (ok 0x45 true → exec (.vxor c r) s = .next (vputInt s c r (fun l => a l ^^^ b l))) ∧
      (ok 0x46 true → exec (.vshl c r) s = .next (vputInt s c r (fun l => a l <<< ((b l).toNat % 32)))) ∧
      (ok 0x47 true → exec (.vshr c r) s = .next (vputInt s c r (fun l => a l >>> ((b l).toNat % 32)))) ∧
      (ok 0x48 true → exec (.vsra c r) s = .next (vputInt s c r (fun l => (a l).sshiftRight ((b l).toNat % 32)))) ∧
      (ok 0x49 true → exec (.vimin c r) s = .next (vputInt s c r (fun l => if (b l).toInt < (a l).toInt then b l else a l))) ∧
      (ok 0x4A true → exec (.vimax c r) s = .next (vputInt s c r (fun l => if (a l).toInt < (b l).toInt then b l else a l))) ∧
      (ok 0x50 false → exec (.vmov c r) s = .next (vputInt s c r a)) ∧
      (ok 0x51 true → exec (.vperm c r) s = .next (vputInt s c r (fun l => a ((b l).toNat % 64)))) ∧
      (ok 0x52 false → exec (.vtrans c r) s = .next (vputInt s c r (fun l => a (8 * (l % 8) + l / 8)))) ∧
      (VecMay s c 0x53 → RFields r false false false true true → r.sub = 0 → r.fmt = 0 → r.imm8.toNat ≤ 63 →
        exec (.vbcast c r) s = .next (vputInt s c r (fun _ => a r.imm8.toNat))) ∧
      (∀ i : VIForm, VecMay s c 0x54 → i.rsv = 0 → exec (.vsplat c i) s = .next (vran s c (vnext s c)
        { cellOf s c with vec := vset (cellOf s c).vec i.vd.toNat (List.replicate 64 i.imm) }))) ∧ (
    ∀ (s : State) (c : CellRef) (r : VRForm),
      let ka := kreg s c r.va.toNat
      let kb := kreg s c r.vb.toNat
      (VecMay s c 0x58 → RFields r (decide (r.sub.toNat ≤ 3)) false false false true → r.fmt = 0 → r.sub.toNat ≤ 6 →
        r.vd.toNat < 8 ∧ r.va.toNat < 8 ∧ r.vb.toNat < 8 → (5 ≤ r.sub.toNat → r.va = 0) →
        MaskResult s c r (.klogic c r) (fun l =>
          let a := ka.getLsbD l
          let b := kb.getLsbD l
          if r.sub = 0 then a && b else if r.sub = 1 then a || b else if r.sub = 2 then xor a b
          else if r.sub = 3 then a && !b else if r.sub = 4 then !a else decide (r.sub = 5))) ∧
      (VecMay s c 0x59 → RFields r false false false false true → r.fmt = 0 → r.sub = 0 → r.va.toNat < 8 →
        exec (.kpop c r) s = .next (vputInt s c r (fun _ =>
          BitVec.ofNat 32 ((List.range 64).filter (fun l => ka.getLsbD l)).length))) ∧
      (VecMay s c 0x5A → RFields r false false false false true → r.fmt = 0 → r.sub = 0 → r.vd.toNat < 8 →
        MaskResult s c r (.kfromv c r) (fun l => decide (vlane s c r.va l ≠ 0))) ∧
      (VecMay s c 0x5B → RFields r false false false false true → r.fmt = 0 → r.sub = 0 → r.va.toNat < 8 →
        exec (.vfromk c r) s = .next (vputInt s c r (fun l => if ka.getLsbD l then 1 else 0))))

/-- VLD (R46, R48, R135): plain and strided loads take four whole rows into vd, a transposed load takes eight rows of the scratchpad
into vd and vd + 1, its output row k holding the source columns k*c to k*c + c - 1, each top to bottom.
VST and VSTP (R37, R135): VST writes the bytes of the active lanes into its four rows, VSTP the chosen bytes of vd at the byte
address it names, over the crossbar where the unit is not the core's own; every other byte of the cell's memories, and everything else
of the cell but the memories' error marks and what the access met, stays. -/
def Obligations.VectorLoadsAndStores : Prop :=
  (
    ∀ (s : State) (c : CellRef) (r : VMForm),
      let k := cellOf s c
      let b := vrow s c r
      let u := r.unit.toNat
      VecMay s c 0x60 → r.men = 0 → r.mr = 0 → r.srcb = 0 → r.len = 0 → r.db = 0 →
      (∀ row : Nat → Nat,
        (r.form = 0 ∧ r.stride = 0 ∧ u ≤ 8 ∧ row = (fun i => b + i)) ∨
          (r.form = 1 ∧ 1 ≤ r.stride.toNat ∧ r.stride.toNat ≤ 3071 ∧ u = 6 ∧ row = (fun i => b + i * r.stride.toNat)) →
        r.wid = 0 → row 3 < unitRows u → (∀ i, i < 4 → RowClean k u (row i)) →
        let new := (List.range 64).map (fun l => BitVec.ofNat 32 (ofLe (k.bytes u (row (l / 16) * 64 + l % 16 * 4) 4)))
        exec (.vld c r) s = .next (vran s c (vnext s c) { k with vec := vset k.vec r.vd.toNat new })) ∧
      (r.form = 2 → r.stride = 0 → r.wid.toNat ≤ 4 → u = 6 → r.vd.toNat % 2 = 0 → b + 7 ≤ 3071 →
        (∀ i, i < 8 → RowClean k 6 (b + i)) →
        ∃ lo hi, exec (.vld c r) s = .next (vran s c (vnext s c)
            { k with vec := vset (vset k.vec r.vd.toNat lo) (r.vd.toNat + 1) hi }) ∧
          let w := [4, 8, 16, 32, 64][r.wid.toNat]?.getD 0
          let out := ofLe (laneBytes (lo ++ hi))
          ∀ i j, i < 8 → j < 512 / w →
            let col := 64 / w
            out / 2 ^ ((j / col * (512 / w) + j % col * 8 + i) * w) % 2 ^ w =
              ofLe (k.bytes 6 ((b + i) * 64) 64) / 2 ^ (j * w) % 2 ^ w)) ∧ (
    ∀ (s : State) (c : CellRef) (r : VMForm),
      let k := cellOf s c
      let b := vrow s c r
      let u := r.unit.toNat
      let byte := fun i => (laneBytes (vget k.vec r.vd.toNat))[i]?.getD 0
      (∀ row : Nat → Nat,
        VecMay s c 0x61 → r.srcb = 0 → r.len = 0 → r.db = 0 → r.wid = 0 → (r.men = 0 → r.mr = 0) →
        (r.form = 0 ∧ r.stride = 0 ∧ u ≤ 8 ∧ row = (fun i => b + i)) ∨
          (r.form = 1 ∧ 1 ≤ r.stride.toNat ∧ r.stride.toNat ≤ 3071 ∧ u = 6 ∧ row = (fun i => b + i * r.stride.toNat)) →
        row 3 < unitRows u → (u = 6 ∨ k.xbarParity ≤ 1) →
        ∃ k', exec (.vst c r) s = .next (vranTells s c 0x61 (vnext s c) k') ∧ OnlyMemory k k' ∧
          (∀ i o, i < 4 → o < 64 → k'.bytes u (row i * 64 + o) 1 =
            if r.men = 0 ∨ (kreg s c r.mr.toNat).getLsbD (16 * i + o / 4) = true then [byte (64 * i + o)] else k.bytes u (row i * 64 + o) 1) ∧
          (∀ v p, v ≤ 8 → p < unitBytes v → ¬(v = u ∧ ∃ i, i < 4 ∧ p / 64 = row i) → k'.bytes v p 1 = k.bytes v p 1)) ∧
      (∀ n o, n = 8 * (r.len.toNat + 1) → o = 64 * b + 8 * r.db.toNat →
        VecMay s c 0x62 → u ≤ 8 → r.form = 0 → r.stride = 0 → r.wid = 0 → r.men = 0 → r.mr = 0 → 8 * r.srcb.toNat + n ≤ 256 →
        o + n ≤ unitBytes u → (u = 6 ∨ k.xbarParity ≤ 1) →
        ∃ k', exec (.vstp c r) s = .next (vranTells s c 0x62 (vnext s c) k') ∧ OnlyMemory k k' ∧
          (∀ i, i < n → k'.bytes u (o + i) 1 = [byte (8 * r.srcb.toNat + i)]) ∧
          (∀ v p, v ≤ 8 → p < unitBytes v → ¬(v = u ∧ o ≤ p ∧ p < o + n) → k'.bytes v p 1 = k.bytes v p 1)))

/-- Control (R126, R131, R135, R152): address registers, jumps, VFENCE, which finds every earlier store landed, and VHALT, which halts
the core and raises the vector-done event.
VTIN and VTOUT (R154, R156, R159, R173): the head token of the bound queue goes to eight lanes of vd, and a link input's queue owes a
credit; a poisoned one is consumed and faults; eight lanes go as one token into the bound queue; an empty or full queue waits; an
unbound port faults; either one issued after its cell's acknowledgement waits for the release. -/
def Obligations.VectorControlAndTokens : Prop :=
  (
    ∀ (s : State) (c : CellRef) (r : VCForm),
      let k := cellOf s c
      let a := mget 0 k.vec.a r.ar.toNat
      let withA := fun v : Half => { k with vec := { k.vec with a := mset 0 k.vec.a r.ar.toNat v } }
      r.rsv = 0 → r.rsv2 = 0 → r.vd = 0 → r.port = 0 → r.grp = 0 →
      (r.ka = 0 → r.sub = 0 → r.target = 0 →
        (VecMay s c 0x70 → exec (.vsetai c r) s = .next (vran s c (vnext s c) (withA r.imm))) ∧
        (VecMay s c 0x71 → exec (.vaddai c r) s = .next (vran s c (vnext s c) (withA (a + r.imm))))) ∧
      (r.imm = 0 →
        (VecMay s c 0x72 → r.ka = 0 → r.sub = 0 → exec (.vloop c r) s =
          .next (vran s c (if a = 1 then vnext s c else r.target.toNat) (withA (a - 1)))) ∧
        (VecMay s c 0x73 → r.ar = 0 → r.ka = 0 → r.sub = 0 → exec (.vjmp c r) s = .next (vran s c r.target.toNat k)) ∧
        (VecMay s c 0x74 → r.ar = 0 → r.sub.toNat ≤ 1 → exec (.vbrk c r) s =
          .next (vran s c (if (kreg s c r.ka.toNat = 0) ↔ r.sub = 1 then r.target.toNat else vnext s c) k)) ∧
        (VecMay s c 0x77 → r.ar = 0 → r.ka = 0 → r.sub = 0 → r.target = 0 →
          exec (.vfence c r) s = .next (vran s c (vnext s c) k)) ∧
        (VecMay s c 0x7F → NoSceneWait s c → r.ar = 0 → r.ka = 0 → r.sub = 0 → r.target = 0 →
          exec (.vhalt c r) s = .next (vran s c (vnext s c)
            { k with vec := { k.vec with running := false }, sc := { k.sc with events := k.sc.events ||| 2 ^ 12 } })))) ∧ (
    ∀ (s : State) (c : CellRef) (r : VCForm),
      let k := cellOf s c
      let wait := fun op : Nat => withCell s c { k with vec := { k.vec with waiting := op } }
      let g := r.grp.toNat
      let late := (envOf s c).sceneReq = true ∧ (k.sc.acked = true ∨ k.sc.ended = true) ∧ (k.vec.held = true ∨ k.vec.waiting = 0)
      let waits := fun op : Nat => withCell s c { k with vec := { k.vec with waiting := op, held := true } }
      r.rsv = 0 → r.rsv2 = 0 → r.ar = 0 → r.ka = 0 → r.sub = 0 → r.target = 0 → r.imm = 0 →
      (late → (VecMay s c 0x75 → exec (.vtin c r) s = .next (waits 0x75)) ∧ (VecMay s c 0x76 → exec (.vtout c r) s = .next (waits 0x76))) ∧
      (¬late → VecMay s c 0x75 →
        (∀ t q, k.rig.portIn 0xD0 r.port.toNat = .token t q → t.bad = false →
          let v := vset k.vec r.vd.toNat ((List.range 64).map (fun l =>
            if l / 8 = g then BitVec.ofNat 32 (le t.bytes (4 * (l % 8)) 4) else vlane s c r.vd l))
          exec (.vtin c r) s = .next (vranTells s c 0x75 (vnext s c) (tookFrom q { k with vec := v }))) ∧
        (∀ t q, NoSceneWait s c → k.rig.portIn 0xD0 r.port.toNat = .token t q → t.bad = true → exec (.vtin c r) s =
          .next (told s c (opVector 0x75) (tookFrom q { k with
            vec := { k.vec with fault := 3, running := false, waiting := 0, held := false }, sc := setEvent k.sc 13 }))) ∧
        (k.rig.portIn 0xD0 r.port.toNat = .empty → exec (.vtin c r) s = .next (wait 0x75)) ∧
        (NoSceneWait s c → k.rig.portIn 0xD0 r.port.toNat = .unbound → exec (.vtin c r) s = .next (vfaulted s c 1))) ∧
      (¬late → VecMay s c 0x76 →
        (∀ q, k.rig.portOut 0xD0 r.port.toNat = .queue q →
          let t := Token.mk ((List.range 32).map (fun i => (laneBytes (vget k.vec r.vd.toNat))[32 * g + i]?.getD 0)) false 0
          exec (.vtout c r) s = .next (vran s c (vnext s c) { k with rig := k.rig.put q t })) ∧
        (k.rig.portOut 0xD0 r.port.toNat = .full → exec (.vtout c r) s = .next (wait 0x76)) ∧
        (NoSceneWait s c → k.rig.portOut 0xD0 r.port.toNat = .unbound → exec (.vtout c r) s = .next (vfaulted s c 1))))

/-- Faults (R55, R129, R135, R136, R138): a fetch beyond the scratchpad, a reserved field or encoding, rows beyond the unit's last or a
width that R48 does not list, a poisoned row, a store that the crossbar did not bring through: FAULT, the core halted, the event
raised, no register of V, K or A and no memory changed. -/
def Obligations.VectorFaults : Prop :=
  ∀ (s : State) (c : CellRef), NoSceneWait s c → s.m.cellRuns c.field c.lcell = true → (cellOf s c).vec.running = true →
    let ready := fun op : Nat => (cellOf s c).vec.waiting = 0 ∨ (cellOf s c).vec.waiting = op
    (∀ r : VRForm, ready 0x10 → 24575 < (cellOf s c).vec.pc → exec (.vadd c r) s = .next (vfaulted s c 2)) ∧
    (∀ r : VRForm, VecMay s c 0x10 → (r.rsv ≠ 0 ∨ r.vc ≠ 0 ∨ 2 ≤ r.fmt.toNat ∨ r.sub ≠ 0 ∨ r.imm8 ≠ 0 ∨ (r.men = 0 ∧ (r.mr ≠ 0 ∨ r.mz ≠ 0))) →
      exec (.vadd c r) s = .next (vfaulted s c 1)) ∧
    (∀ r : VRForm, VecMay s c 0x40 → (r.rnd ≠ 0 ∨ r.fmt ≠ 0) → exec (.viadd c r) s = .next (vfaulted s c 1)) ∧
    (∀ r : VRForm, VecMay s c 0x28 → (3 ≤ r.sub.toNat ∨ r.rnd = 3) → exec (.vrsum c r) s = .next (vfaulted s c 1)) ∧
    (∀ r : VRForm, VecMay s c 0x33 → (r.men ≠ 0 ∨ r.fmt.toNat < 2 ∨ 6 < r.fmt.toNat) → exec (.vqmx c r) s = .next (vfaulted s c 1)) ∧
    (∀ r : VMForm, VecMay s c 0x60 → (r.form = 3 ∨ (r.form = 1 ∧ r.unit ≠ 6) ∨ (r.form ≠ 1 ∧ r.stride ≠ 0) ∨ r.men ≠ 0 ∨
      (r.form = 2 ∧ r.vd.toNat % 2 = 1)) → exec (.vld c r) s = .next (vfaulted s c 1)) ∧
    (∀ r : VMForm, VecMay s c 0x60 → r.form = 2 → r.unit = 6 → r.vd.toNat % 2 = 0 → r.stride = 0 → r.men = 0 → r.mr = 0 →
      r.srcb = 0 → r.len = 0 → r.db = 0 → (5 ≤ r.wid.toNat ∨ 3071 < vrow s c r + 7) → exec (.vld c r) s = .next (vfaulted s c 2)) ∧
    (∀ r : VMForm, r.form = 0 → r.stride = 0 → r.wid = 0 → r.men = 0 → r.mr = 0 → r.unit.toNat ≤ 8 → r.unit ≠ 6 →
      vrow s c r + 3 < unitRows r.unit.toNat → 2 ≤ (cellOf s c).xbarParity →
      let k := cellOf s c
      let lost := fun op => told s c (opVector op) { k with
        vec := { k.vec with fault := 3, running := false, waiting := 0, held := false }, sc := setEvent k.sc 13
        xbarParity := k.xbarParity - 2, notes := [.xbar false] }
      (VecMay s c 0x61 → r.srcb = 0 → r.len = 0 → r.db = 0 → exec (.vst c r) s = .next (lost 0x61)) ∧
      (VecMay s c 0x62 → 8 * r.srcb.toNat + 8 * (r.len.toNat + 1) ≤ 256 → exec (.vstp c r) s = .next (lost 0x62))) ∧
    (∀ r : VMForm, r.form = 0 → r.stride = 0 → r.wid = 0 → r.men = 0 → r.mr = 0 → r.srcb = 0 → r.len = 0 → r.db = 0 → r.unit.toNat ≤ 8 →
      unitRows r.unit.toNat ≤ vrow s c r + 3 →
      (VecMay s c 0x60 → exec (.vld c r) s = .next (vfaulted s c 2)) ∧ (VecMay s c 0x61 → exec (.vst c r) s = .next (vfaulted s c 2))) ∧
    (∀ r : VMForm, VecMay s c 0x60 → r.form = 0 → r.stride = 0 → r.wid = 0 → r.men = 0 → r.mr = 0 → r.srcb = 0 → r.len = 0 → r.db = 0 →
      r.unit.toNat ≤ 8 → vrow s c r + 3 < unitRows r.unit.toNat → (cellOf s c).rowsBad r.unit.toNat (vrow s c r) 4 = true →
      ∃ t, exec (.vld c r) s = .next t ∧
        let k := t.m.cell c.field c.lcell
        k.vec = { (cellOf s c).vec with fault := 3, running := false, waiting := 0, held := false } ∧ k.sc = setEvent (cellOf s c).sc 13 ∧
          k.mem = (cellOf s c).mem)

/-! ### Fly engines, the mesh, asides (08, 09) -/

/-- The fly engine (R201 to R203, R212, R273): in the engine's own turn the transfer whose turn it is sends its next request, of at most eight rows that cross no
512-byte boundary at the far end; a good reply's rows land, a failing one ends the transfer with KIND 2 and its status, the first
failure kept, an unreachable one is kept and holds the job; a transfer with nothing left completes with its word, its tag
free, FLYDONE set. -/
def Obligations.FlyEngine : Prop :=
  ∀ (s : State) (c : CellRef), s.m.cellRuns c.field c.lcell = true →
    let k := cellOf s c
    let f := c.field.val
    let l := c.lcell.val
    let led := fun t : Transfer => if dLedger t.desc then some (dLedgerId t.desc) else none
    let near := fun a : Word => isNear (envOf s c) a
    (∀ t a d n, s.m.coHeld (s.m.coOf f) = false → s.m.ownTurn f l = true → s.m.pickFly f l = some t → t.phase = 0 → dOp t.desc ≠ 3 →
      a = dSrc t.desc + BitVec.ofNat 64 (t.line * dSrcStride t.desc + t.row * 64) →
      d = dDst t.desc + BitVec.ofNat 64 (t.line * dDstStride t.desc + t.row * 64) →
      let t' := if lineRows t ≤ t.row + n then { t with line := t.line + 1, row := 0 } else { t with row := t.row + n }
      let issued := fun (k' : Cell) (q : FlyReq) =>
        let x := told s c (opFly (dOp t.desc)) { k' with fly := { putTransfer k.fly t' with
          reqs := k.fly.reqs ++ [q], nextId := k.fly.nextId + 1, rr := t.tag, lastIn := false } }
        { x with m := x.m.issueReq f l ⟨.fly f l k.fly.nextId, (s.m.coOf f).getD 0, q.addr, q.op, s.m.gens f l true, led t⟩ }
      (near (dDst t.desc) = true → near (dSrc t.desc) = false → n = min (lineRows t - t.row) (8 - a.toNat / 64 % 8) →
        nearOk d (64 * n) = true → exec (.flyRequestIssue c) s =
          .next (issued k ⟨k.fly.nextId, t.tag, true, a, .read (64 * n), d, true, false, faDev a, led t⟩)) ∧
      (near (dDst t.desc) = false → near (dSrc t.desc) = true → n = min (lineRows t - t.row) (8 - d.toNat / 64 % 8) →
        nearOk a (64 * n) = true →
        let p := k.readRows 9 (faUnit a) (faByte a / 64) n
        p.2 = false → exec (.flyRequestIssue c) s = .next (issued p.1 ⟨k.fly.nextId, t.tag, false, d,
          .write (k.bytes (faUnit a) (faByte a / 64 * 64) (64 * n)) [], a, true, false, faDev d, led t⟩))) ∧
    (∀ i r q t, (k.replies.filter isFlyReply)[i]? = some r → s.m.staleReply f l true r.gens = 0 →
      k.fly.reqs.find? (fun q => decide (q.id = replyId r)) = some q →
      k.fly.transfers.find? (fun t => decide (t.tag = q.tag)) = some t →
      let n := opRows q.op
      let k' := { k with replies := dropReply k.replies r, fly := { k.fly with reqs := k.fly.reqs.filter (fun x => decide (x.id ≠ q.id)) } }
      let put := fun t' => { k' with fly := putTransfer k'.fly t' }
      (r.status = 0 → r.bad = [] → q.isRead = true → t.phase = 0 → exec (.flyReply c i) s =
        let bytes := slice r.bytes 0 (64 * n)
        .next (countedAt (told s c 0x400 (crossWrite (put { t with rowsDone := t.rowsDone + n }) (faUnit q.dst) (faByte q.dst) bytes []))
          c 4 2 0 (bytes.length / 64))) ∧
      (r.status = 0 → r.bad = [] → q.isRead = false → exec (.flyReply c i) s =
        .next (countedAt (withCell s c (put { t with rowsDone := t.rowsDone + n })) c 4 2 0 n)) ∧
      (r.status ≠ 0 → r.status ≠ 2 → ¬(r.status = 5 ∧ faSpace q.addr = 3 ∧ q.isRead = true) → exec (.flyReply c i) s =
        .next (withCell s c (put (if t.ended then t else { t with ended := true, kind := 2, code := r.status })))) ∧
      (r.status = 2 → exec (.flyReply c i) s =
        let x := withCell s c { k with
          replies := dropReply k.replies r
          fly := { k.fly with reqs := k.fly.reqs.map (fun x => if x.id = q.id then { x with kept := true } else x) } }
        .next { x with m := x.m.holdFor f l q.addr })) ∧
    (∀ (tag : Fin 16) t, NoSceneWait s c → k.fly.transfers.find? (fun t => decide (t.tag = tag.val)) = some t →
      transferDone k.fly t = true →
      let word := if t.ended then t.kind % 8 * 2 ^ 8 + t.code % 256 + t.rowsDone % 8192 * 2 ^ 16
        else if t.poisoned then 3 * 2 ^ 8 + 3 + t.rowsDone % 8192 * 2 ^ 16 else 0
      (t.ended = true → t.kind ≠ 0) →
      exec (.flyTransferComplete c tag) s = .next (counted (withCell s c { k with
        fly := { k.fly with
          transfers := k.fly.transfers.filter (fun t => decide (t.tag ≠ tag.val))
          words := mset 0 k.fly.words tag (BitVec.ofNat 64 word) }
        sc := { k.sc with events := k.sc.events ||| 2 ^ 14 } }) c 4 1))

/-- A hop (R207 to R209, R316): the packet an output begins next goes to the next router, there to the output towards its target, along x
before y, or ends at its own router; with bulk waiting and control in more than eight of the last sixteen slots the first bulk
packet begins; with no control waiting too.
A flit whose parity fails (R369): resent well, the packet goes on; a payload word that fails twice is poisoned, and the packet goes
on; a header that fails once too often ends a request with status 5 and drops anything else; a header in error in both words is
dropped without an answer. -/
def Obligations.MeshHopsAndParityErrors : Prop :=
  (
    ∀ (s : State) (o : MeshOut) (i : Nat) (p : Packet),
      let m := s.m
      let key := outKey o.reply o.mx o.my o.dir
      let q := mget [] m.routers key
      let used := ((mget [] m.slots key).filter id).length
      (∀ b, q.findIdx? (fun p => !p.control) = some b → (8 < used ∨ ∀ p ∈ q, p.control = false) → m.nextPacket key = some b) ∧
      (m.nextPacket key = some i → q[i]? = some p →
        let gone := m.begun key i p
        mget [] gone.routers key = q.eraseIdx i ∧
        (∀ key', key' ≠ key → mget [] gone.routers key' = mget [] m.routers key') ∧
        (o.dir.val ≠ 4 →
          let t := m.nextRouter o.mx o.my o.dir
          let dir := if t.1 < p.mx then 1 else if p.mx < t.1 then 3 else if t.2 < p.my then 2 else if p.my < t.2 then 0 else 4
          let k' := outKey p.reply t.1 t.2 dir
          m.fabricTakes (routerField t.1 t.2) = true →
          exec (.meshPacketHop o) s = .next { s with m := { gone with routers := mset [] gone.routers k' (mget [] gone.routers k' ++ [p]) } }) ∧
        (∀ f l r, o.dir.val = 4 → p.dest = .cell f l → p.body = .req r → m.cellRuns f l = true →
          exec (.meshPacketHop o) s = .next { s with m := gone.setCell f l { m.cell f l with inbound := (m.cell f l).inbound ++ [r] } }) ∧
        (∀ f l r, o.dir.val = 4 → p.dest = .cell f l → p.body = .rep r → m.fieldOn f = true →
          exec (.meshPacketHop o) s = .next { s with m := gone.setCell f l { m.cell f l with replies := (m.cell f l).replies ++ [r] } }))) ∧ (
    ∀ (s : State) (o : MeshOut) (i : Nat) (p : Packet),
      let key := outKey o.reply o.mx o.my o.dir
      let q := mget [] s.m.routers key
      s.m.nextPacket key = some i → q[i]? = some p →
      let noted := fun (m : Mod) (word code : Nat) (failed : Bool) => m.flitRecord o.reply o.mx o.my word code failed
      let free := fun (m : Mod) (code : Nat) (failed : Bool) => noted m.draw.2 (bits m.draw.1 7 0) code failed
      (exec (.meshFlitParityError o .corrected) s = exec (.meshPacketHop o) { s with m := free s.m 0 false }) ∧
      (∀ w r bs bad, p.body = .req r → r.op = .write bs bad →
        let m := noted s.m w 0 true
        let p' := { p with body := .req { r with op := .write bs (sadd bad (w % (bs.length / 8))) } }
        exec (.meshFlitParityError o (.payload w)) s =
          exec (.meshPacketHop o) { s with m := { m with routers := mset [] m.routers key (q.set i p') } }) ∧
      (∀ r, p.body = .req r → exec (.meshFlitParityError o .header) s =
        .next { s with m := (free (s.m.begun key i p) 5 true).answer o.mx o.my ⟨r.owner, 5, [], [], r.gens⟩ p.co }) ∧
      (exec (.meshFlitParityError o .headerBoth) s = .next { s with m := free (s.m.begun key i p) 0 true }))

/-! ### Rigging and scenes (07) -/

/-- Tokens on links (R157 to R161, R176): in an owned slot, once, the owner's head token goes into the receiving node's queue and
spends a credit, poisoned where a word's parity is bad (R154); with an empty owner the slot is counted as idle, without a credit as
blocked; a token that comes out of a seam enters the
queue of its pair; a credit owed comes back; a sample record is written and its counts start again.
Steering units (R162 to R164): what a switch, a select, a merge and a fork consume and produce where every token they need is there
and the destination, a queue or the sink, has room; a merge alternates; a poisoned condition stops
the unit and signals a job fault with code 0x03. -/
def Obligations.TokensCreditsAndSteering : Prop :=
  (
    ∀ (s : State) (c : CellRef), s.m.cellRuns c.field c.lcell = true →
      let k := cellOf s c
      let x := s.m.field c.field
      (∀ (out : Fin 4) q t ts nf nl dst,
        mget 0 k.rig.last out / 2 ≠ x.slots + 1 → s.m.installing c.field = false →
        k.rig.slotOwner out x.slot = some q →
        s.m.neighbour c.field c.lcell out = some (nf, nl) → nf = c.field.val →
        (s.m.cell nf nl).rig.slotQueue ((out + 2) % 4) x.slot = some dst →
        let key := creditKey out dst
        let had := fun sent => { k.rig with last := mset 0 k.rig.last out (2 * (x.slots + 1) + sent) }
        (k.rig.queue q = [] → exec (.tokenDeparture c out) s = .next (counted (withCell s c { k with rig := had 0 }) c 5 6)) ∧
        (k.rig.queue q = t :: ts → mget 0 k.rig.spent key < 16 →
          ((s.m.cell nf nl).rig.linkBad = 0 → exec (.tokenDeparture c out) s =
            let k1 := tookFrom q { k with rig :=
              { had 1 with spent := mset 0 k.rig.spent key (mget 0 k.rig.spent key + 1), sent := k.rig.sent + 1 } }
            let t1 := told s c (opRig 0) { k1 with notes := k1.notes ++ [.count 5 (out + 1) 0 1] }
            .next { t1 with m := t1.m.modCell nf nl (fun n => { n with rig := n.rig.put dst t.out }) }) ∧
          (∀ n, (s.m.cell nf nl).rig.linkBad = n + 1 → Makes (.tokenDeparture c out) s (fun m' =>
            (m'.cell nf nl).rig.linkBad = n ∧
            (m'.cell nf nl).rig.queue dst = (s.m.cell nf nl).rig.queue dst ++ [{ t.out with bad := true }]))) ∧
        (k.rig.queue q = t :: ts → 16 ≤ mget 0 k.rig.spent key → exec (.tokenDeparture c out) s =
          .next (counted (withCell s c { k with rig := { had 0 with blocked := k.rig.blocked + 1 } }) c 5 5))) ∧
      (∀ (inp : Fin 4) p t ts q, mget [] k.rig.seam inp = (p, t) :: ts → k.rig.slotQueue inp (2 * p) = some q →
        exec (.seamTokenArrival c inp) s = .next (withCell s c { k with rig :=
          { k.rig with seam := mset [] k.rig.seam inp ts, queues := mset [] k.rig.queues q (k.rig.queue q ++ [t]) } })) ∧
      (∀ (out : Fin 4) (q : Fin 80),
        let key := creditKey out q
        0 < mget 0 k.rig.owed key → exec (.creditReturn c out q) s = .next (withCell s c { k with rig :=
          { k.rig with
            owed := mset 0 k.rig.owed key (mget 0 k.rig.owed key - 1)
            spent := mset 0 k.rig.spent key (mget 0 k.rig.spent key - 1) } })) ∧
      (s.m.isSet (rsEn c.field) = true → exec (.rigSampleRecord c) s = .next (withCell s c { k with rig :=
        { k.rig with record := k.rig.sample (s.m.get (rsMode c.field)) (s.m.get (rsQsel c.field)), blocked := 0, sent := 0 } }))) ∧ (
    ∀ (s : State) (c : CellRef) (su : Fin 8), s.m.cellRuns c.field c.lcell = true →
      let k := cellOf s c
      let g := k.rig
      let u := g.steer su
      let dest := fun (d : Nat) (t : Token) (r : Rig) => if 128 ≤ d then r else r.put (64 + d % 16) t
      let room := fun d : Nat => 128 ≤ d ∨ (g.queue (64 + d % 16)).length < 16
      let fires := fun (d : Nat) (k' : Cell) =>
        let x := told s c (opRig 0) k'
        counted (if 128 ≤ d then counted x c 5 8 else x) c 5 7
      let cond := fun tc : Token => (((tc.bytes[u.condBit / 8]?).getD 0).getLsbD (u.condBit % 8)) != u.invert
      su.val ∉ g.stopped →
      (∀ ta tc as cs, u.kind = 1 → g.queue u.a = ta :: as → g.queue u.c = tc :: cs → tc.out.bad = false →
        let d := if cond tc then u.d1 else u.d0
        let k' := tookFrom u.c (tookFrom u.a k)
        room d → exec (.steeringFire c su) s = .next (fires d { k' with rig := dest d ta.out k'.rig })) ∧
      (∀ tc cs t ts, u.kind = 2 → g.queue u.c = tc :: cs → tc.out.bad = false →
        let q := if cond tc then u.b else u.a
        let k' := tookFrom q (tookFrom u.c k)
        g.queue q = t :: ts → room u.d0 → exec (.steeringFire c su) s = .next (fires u.d0 { k' with rig := dest u.d0 t.out k'.rig })) ∧
      (∀ q t ts, u.kind = 3 → u.a ≠ u.b →
        (q = u.a ∧ (g.queue u.b = [] ∨ su.val ∉ g.mergeB)) ∨ (q = u.b ∧ (g.queue u.a = [] ∨ su.val ∈ g.mergeB)) →
        g.queue q = t :: ts → room u.d0 →
        let last := if q = u.a then sadd g.mergeB su else sdel g.mergeB su
        let k' := tookFrom q k
        exec (.steeringFire c su) s = .next (fires u.d0 { k' with rig := { dest u.d0 t.out k'.rig with mergeB := last } })) ∧
      (∀ t ts, u.kind = 4 → g.queue u.a = t :: ts → room u.d0 → room u.d1 →
        (128 ≤ u.d0 ∨ 128 ≤ u.d1 ∨ u.d0 % 16 ≠ u.d1 % 16 ∨ (g.queue (64 + u.d0 % 16)).length + 1 < 16) →
        let k' := tookFrom u.a k
        let x := told s c (opRig 0) { k' with rig := dest u.d1 t.out (dest u.d0 t.out k'.rig) }
        let sunk := fun (d : Nat) (x : State) => if 128 ≤ d then counted x c 5 8 else x
        exec (.steeringFire c su) s = .next (counted (sunk u.d1 (sunk u.d0 x)) c 5 7)) ∧
      (∀ tc cs, u.kind = 1 ∨ u.kind = 2 → g.queue u.c = tc :: cs → tc.out.bad = true →
        exec (.steeringFire c su) s =
          let x := told s c (opRig 0) { k with rig := { g with stopped := sadd g.stopped su }, notes := g.headNotes u.c }
          .next { x with m := x.m.jobFault c.field c.lcell 3 0x3FFFF }))

/-- SCENE_CTRL with GO or STAGE (R168): discarded with GO_LOST while BUSY; RESULT 6 or 5 and nothing else where there is no production,
no such scene or, for a GO, no job; else the fields stored, BUSY set and the change or the staging begun. -/
def Obligations.SceneControl : Prop :=
  ∀ (s : State) (co : Fin 16) (v : Word) (i : Instr) (go : Bool),
    (i = .sceneGo co .pf v ∧ go = true ∧ v.getLsbD 31 = true ∧ v.getLsbD 29 = false) ∨
      (i = .sceneStage co .pf v ∧ go = false ∧ v.getLsbD 31 = false ∧ v.getLsbD 29 = true) →
    s.m.prompterUp = true →
    let m := s.m
    let st := m.coState co
    let target := bits v 23 16
    let loaded := st = stLoaded ∨ st = stRunning ∨ st = stHeld
    (m.get (scBusy co) = 1 → exec i s = .next { s with m := m.put (scGoLost co) 1 }) ∧
    (m.get (scBusy co) = 0 → m.isSet (cdEn co) = true →
      (st = stEmpty ∨ st = stLoading ∨ st = stUnloading → exec i s = .next { s with m := m.put (scResult co) 6 }) ∧
      (loaded → m.hasScene co target = false → exec i s = .next { s with m := m.put (scResult co) 5 }) ∧
      (st = stLoaded → m.hasScene co target = true → go = true → exec i s = .next { s with m := m.put (scResult co) 6 }) ∧
      (loaded → m.hasScene co target = true → (go = true → st ≠ stLoaded) →
        Makes i s (fun m' => m'.get (scBusy co) = 1 ∧ m'.get (scTarget co) = target ∧ m'.get (scForced co) = bits v 30 30 ∧
          m'.get (scStrikeUs co) = (if bits v 15 8 = 0 then m.get (scStrikeUs co) else bits v 15 8) ∧
          m'.get (scAckMs co) = (if bits v 7 0 = 0 then m.get (scAckMs co) else bits v 7 0) ∧ m'.get (scResult co) = m.get (scResult co) ∧
          (go = false → m'.get (scStagedValid co) = 0) ∧
          ∃ g, (m'.co co).change = some g ∧ g.target = target ∧ g.phase = (if go then 1 else 0) ∧ g.asked = [] ∧ g.done = [])))

/-- A scene change's way (R168 to R172): the end of a staging sets STAGED; the request sets SCENE_REQ in the field's job cells; a clean
strike of no interval scene leaves no token discarded and goes on to the installation; a strike that is late is forced, every token
discarded and counted; a field that installs swaps its banks and sets its slot counter to 0; the last one to install makes the target
CURRENT and the scene before it STAGED; the release, of a job that is not held, sets the SCENE CSR of every cell and RESULT 1, 2 or 3, and
releases the cells that acknowledged. -/
def Obligations.SceneChangeSteps : Prop :=
  ∀ (s : State) (co : Fin 16) (g : SceneChange), (s.m.co co).change = some g →
    let m := s.m
    (g.phase = 0 → Makes (.stagingComplete co) s (fun m' => m'.get (scStaged co) = g.target % 256 ∧ m'.get (scStagedValid co) = 1 ∧
      m'.get (scBusy co) = 0 ∧ m'.get (scResult co) = m.get (scResult co) ∧ (m'.co co).change = none)) ∧
    (∀ f : Fin 72, m.present f = true → g.phase = 1 → f.val ∈ m.coFields co → f.val ∉ g.asked →
      (∃ h ∈ m.coFields co, h ≠ f.val ∧ h ∉ g.asked) →
      Makes (.sceneRequest co f) s (fun m' => (m'.co co).change = some { g with asked := sadd g.asked f } ∧
        ∀ p ∈ m.prodCells co, p.1 = f.val → (m'.cell p.1 p.2).sc.events.getLsbD 24 = true)) ∧
    (g.phase = 2 → g.forced = false → m.isInterval co g.target = false →
      (m.rigTokens co = 0 → Makes (.strikeClean co) s (fun m' => m'.get (scDiscarded co) = 0 ∧
        (m'.co co).change = some { g with phase := 3 })) ∧
      Makes (.strikeTimeout co) s (fun m' => m'.get (scDiscarded co) = min (m.rigTokens co) 0xFFFFFFFF ∧
        (m'.co co).change = some { g with timedOut := true, phase := 3 } ∧ m'.rigTokens co = 0)) ∧
    (∀ f : Fin 72, m.present f = true → g.phase = 3 → f.val ∈ m.coFields co → f.val ∉ g.done → m.asidesFly co = false →
      (if g.done = [] then m.holdsStaged co g.target = true else g.useStaged = true) →
      Makes (.sceneInstall co f) s (fun m' => (m'.field f).slot = 0 ∧
        ((∀ h ∈ m.coFields co, h = f.val ∨ h ∈ g.done) → m'.get (scCurrent co) = g.target % 256 ∧
          m'.get (scStaged co) = m.get (scCurrent co) ∧ ∃ g', (m'.co co).change = some g' ∧ g'.phase = 4) ∧
        ∀ l, m.cellOk f l = true → (m'.cell f l).rig.active = (m.cell f l).rig.staged ∧
          (m'.cell f l).rig.staged = (m.cell f l).rig.active ∧ (m'.cell f l).rig.queues = [] ∧ (m'.cell f l).rig.spent = [])) ∧
    (g.phase = 4 → g.cue = none → m.coState co ≠ stHeld → Makes (.sceneRelease co) s (fun m' =>
      m'.get (scBusy co) = 0 ∧ m'.get (scResult co) = (if g.timedOut then 2 else if g.forced then 3 else 1) ∧
      m'.get (scCurrent co) = m.get (scCurrent co) ∧ (m'.co co).change = none ∧
      (∀ p ∈ m.coCells co, (m'.cell p.1 p.2).sc.scene = g.target) ∧
      ∀ p ∈ m.prodCells co, (m'.cell p.1 p.2).sc.released = (m.cell p.1 p.2).sc.acked)) ∧
    (g.phase = 4 → m.coState co = stHeld → exec (.sceneRelease co) s = .next s) ∧
    (g.phase = 1 → m.coState co = stRunning → g.cue = none → ∀ p,
      firstCell ((m.prodCells co).filter (fun p => !acknowledged (m.cell p.1 p.2))) = some p →
      Makes (.ackTimeout co) s (fun m' => m'.get (scResult co) = 4 ∧ m'.get (scBusy co) = 0 ∧
        m'.get (swField co) = p.1 % 128 ∧ m'.get (swLcell co) = p.2 % 512 ∧ (m'.co co).change = none))

/-! ### The stratum (08) -/

/-- A request served by a channel (R180, R186 to R188, R191, R213, R401) of a field whose stratum is ready: a read of sound bursts returns
their bytes, a write of sound bursts puts its bytes there and changes no other byte, an atomic that finds a sound burst returns the
old 8 bytes and writes the new; the first request that is 1 us old comes first; a request to a stratum that is not ready is
answered with 0x04, one of an old company generation is dropped and counted.
The channels' own work and the states of a field's stratum (R180, R189, R190, R192 to R194): a bank's row closed; a corrected burst
written back and correctable no more; a scrub that finds a correctable burst puts it down for its write-back; training, which
lasts to the end of a bring-up's step 7, ends in ready, in a zero-fill where the contents were lost, or in a fault; a zero-fill leaves the field's slot zero and ready; a channel
lost puts the field into the fault state. -/
def Obligations.StratumRequestsAndUpkeep : Prop :=
  (
    ∀ (s : State) (f : Fin 72) (ch : Fin 16) (aged i : Nat) (q : ChanReq),
      let m := s.m
      let x := m.chan f ch
      i = m.pickChan f ch aged → x.queue[i]? = some q →
      let r := q.req
      let b := m.bankRowOf f ch r
      let m1 := (m.setChan f ch { x with queue := x.queue.eraseIdx i, rows := mset 0 x.rows b.1 (b.2 + 1) }).coolChan f ch
      let p := m.stratPlace r.co (faOff r.addr)
      let k := p.1 * 2 ^ 35 + p.2
      let sound := fun n : Nat => ∀ b ∈ burstsOf k n, m.keyChan (b * 64) ∉ m.stratOpen ∧ b ∉ m.stratBad ∧ b ∉ m.stratLatent
      let seen := fun (m : Mod) (n : Nat) => m.each (burstsOf k n) (fun m b =>
        m.count 7 1 (m.keyChan (b * 64) / 16) 0 (m.keyChan (b * 64) % 16) 1)
      let reply := fun (st : Nat) (bs : List Byte) => Reply.mk r.owner st bs [] r.gens
      (0 < aged → i = 0) ∧
      (m.staleReq r = true → exec (.stratumRequest f ch aged) s = .next { s with m := m1.addSat (gsStale r.co) 1 }) ∧
      (m.staleReq r = false → m.stratState f ≠ ssReady → exec (.stratumRequest f ch aged) s =
        .next { s with m := m1.answer q.mx q.my (reply 4 []) r.co }) ∧
      (m.staleReq r = false → m.stratState f = ssReady →
        (∀ n, (r.op = .read n ∨ (r.op = .load ∧ n = 8)) → r.ledger = none → sound n → exec (.stratumRequest f ch aged) s =
          .next { s with m := (seen m1 n).answer q.mx q.my (reply 0 (readBytes m.strat k n)) r.co }) ∧
        (∀ bs, (r.op = .write bs [] ∨ ∃ v, r.op = .store v ∧ bs = toLe v.toNat 8) → sound bs.length →
          Makes (.stratumRequest f ch aged) s (fun m' => (m'.chan f ch).queue = x.queue.eraseIdx i ∧
            (∀ j, j < bs.length → readByte m'.strat (k + j) = bs[j]?.getD 0) ∧
            (∀ a, ¬(k ≤ a ∧ a < k + bs.length) → readByte m'.strat a = readByte m.strat a) ∧ m'.stratBad = m.stratBad)) ∧
        (∀ op v cmp, r.op = .atomic op v cmp → k % 8 = 0 → sound 8 →
          let old := BitVec.ofNat 64 (ofLe (readBytes m.strat k 8))
          ∃ mm : Mod, exec (.stratumRequest f ch aged) s = .next { s with m := mm.answer q.mx q.my (reply 0 (toLe old.toNat 8)) r.co } ∧
            (mm.chan f ch).queue = x.queue.eraseIdx i ∧
            (∀ a, readByte mm.strat a = match atomicNew op old v cmp with
              | some w => if k ≤ a ∧ a < k + 8 then (toLe w.toNat 8)[a - k]?.getD 0 else readByte m.strat a
              | none => readByte m.strat a)))) ∧ (
    ∀ (s : State) (f : Fin 72) (ch : Fin 16),
      let m := s.m
      let x := m.chan f ch
      (∀ bank, exec (.stratumRowClose f ch bank) s = .next { s with m := m.setChan f ch { x with rows := merase x.rows bank } }) ∧
      (∀ i b, x.wbacks[i]? = some b → exec (.stratumWriteBack f ch i) s =
        let m' := { m with stratLatent := sdel m.stratLatent b }
        .next { s with m := m'.setChan f ch { x with wbacks := sdel x.wbacks b } }) ∧
      (∀ (layer : Fin 2) (burst : BitVec 24), m.isSet stScrubEn = true → m.stratState f = ssReady → layer.val < m.layers →
        let b := stratKeyOf f (m.slotByte ch layer (burst.toNat * 64)) / 64
        (b ∉ m.stratBad → b ∉ m.stratLatent → exec (.stratumScrub f ch layer burst) s = .next { s with m := m.count 7 5 f 0 ch 1 }) ∧
        (b ∉ m.stratBad → b ∈ m.stratLatent → Makes (.stratumScrub f ch layer burst) s (fun m' =>
          b ∈ (m'.chan (m.keyChan (b * 64) / 16) (m.keyChan (b * 64) % 16)).wbacks ∧ m'.strat = m.strat))) ∧
      (m.get buStep ≤ 7 → exec (.stratumTrainingDone f true) s = .next s) ∧
      (∀ ok, m.stratState f = ssTraining → (ok = true → 8 ≤ m.get buStep) → exec (.stratumTrainingDone f ok) s =
        let st := if ok = false then ssFault else if f.val ∈ m.stratLost then ssFilling else ssReady
        .next { s with m := m.put (sfState f) st }) ∧
      (m.stratState f = ssFilling → Makes (.stratumZeroFillDone f) s (fun m' => m'.stratState f = ssReady ∧
        ∀ a, readByte m'.strat a = if a / 2 ^ 35 = f.val then 0 else readByte m.strat a)) ∧
      (m.stratState f ≠ ssOff → Makes (.stratumChannelLoss f ch) s (fun m' => m'.stratState f = ssFault ∧ m'.strat = m.strat ∧
        chanKey f ch ∈ m'.stratOpen)))

/-! ### Ports and Shedin (11) -/

/-- Frames on a link (R244, R245): at a port that is up the frame whose turn it is passes to the ingress edge and the next is expected; a
frame in error, or a later one, is discarded and a retry asked for; a retry asked for by the far side sends the unacknowledged frames
from its number on again, and one asked for after 16 retries of the same number takes the port down.
The states of a port (R243, R244, R329): a lane lost brings in the spare, once; a second one fails the port; loss of signal and PORT_EN 0
take it down; a port that is down trains while PORT_EN is 1, not in ghost light; training that ends well brings it up with its link numbers
at 0, a lane that failed it replaced by the spare; two failed lanes fail the port. -/
def Obligations.LinkFramesAndPortStates : Prop :=
  (
    ∀ (s : State) (p : Fin 48), s.m.portUp p = true →
      let m := s.m
      let x := m.oport p
      (∀ fr, fr.fecOk = true → bits fr.w3 63 32 = (frameCrc fr).toNat →
        (fLinkSeq fr = x.expect % 1024 → x.expect < 1024 → Makes (.linkFrameReceive p fr) s (fun m' =>
          (m'.oport p).ingress = x.ingress ++ [fr] ∧ (m'.oport p).expect = (x.expect + 1) % 1024 ∧ (m'.oport p).asked = false)) ∧
        (0 < (fLinkSeq fr + 1024 - x.expect) % 1024 → (fLinkSeq fr + 1024 - x.expect) % 1024 < 512 →
          Makes (.linkFrameReceive p fr) s (fun m' =>
            (m'.oport p).ingress = x.ingress ∧ (m'.oport p).expect = x.expect ∧ (m'.oport p).asked = true))) ∧
      (∀ fr, (fr.fecOk = false ∨ bits fr.w3 63 32 ≠ (frameCrc fr).toNat) → Makes (.linkFrameReceive p fr) s (fun m' =>
        (m'.oport p).ingress = x.ingress ∧ (m'.oport p).expect = x.expect ∧ (m'.oport p).asked = true ∧
          (m'.oport p).unacked = x.unacked)) ∧
      (∀ sq : BitVec 10, ackFrames sq.toNat x.unacked ≠ [] →
        (x.failSeq ≠ sq.toNat ∨ x.failed < 16 → Makes (.linkRetry p sq) s (fun m' =>
          m'.out = m.out ++ (ackFrames sq.toNat x.unacked).map (fun fr => .frame p (stamp { x with nextSeq := fLinkSeq fr } fr)) ∧
            (m'.oport p).failed = (if x.failSeq = sq.toNat then x.failed else 0) + 1 ∧ (m'.oport p).failSeq = sq.toNat ∧
            (m'.oport p).unacked = x.unacked)) ∧
        (x.failSeq = sq.toNat → 16 ≤ x.failed → Makes (.linkRetry p sq) s (fun m' => m'.get (portState p) = 1)))) ∧ (
    ∀ (s : State) (p : Fin 48), s.m.portFitted p = true →
      let m := s.m
      let st := m.get (portState p)
      (∀ lane : Fin 17, st = 3 → lane.val < 16 → (m.get (portLanes p)).testBit lane = false →
        (m.get (portLanes p) = 0 → shas m.fuses.spareLanes p = false →
          Makes (.laneLoss p lane) s (fun m' => m'.get (portState p) = 4 ∧ m'.get (portSpare p) = 1 ∧ m'.get (portLanes p) = 2 ^ lane.val)) ∧
        (m.get (portLanes p) ≠ 0 ∨ shas m.fuses.spareLanes p = true →
          Makes (.laneLoss p lane) s (fun m' => m'.get (portState p) = 5))) ∧
      (st = 2 ∨ st = 3 ∨ st = 4 → Makes (.lossOfSignal p) s (fun m' => m'.get (portState p) = 1 ∧ (m'.oport p).unacked = [])) ∧
      (st = 1 → m.get (portEn p) = 1 → m.ghost = false → exec (.portRetrain p) s = .next { s with m := m.put (portState p) 2 }) ∧
      (m.ghost = true → exec (.portRetrain p) s = .next s) ∧
      (∀ v : Word32, m.pfAll = true →
        (v.getLsbD 0 = true → exec (.portEnWrite p v) s = .next { s with m := m.put (portEn p) 1 }) ∧
        (v.getLsbD 0 = false → st = 2 ∨ st = 3 ∨ st = 4 →
          Makes (.portEnWrite p v) s (fun m' => m'.get (portEn p) = 0 ∧ m'.get (portState p) = 1))) ∧
      (st = 2 ∨ st = 4 →
        (m.fewLanes p = false →
          Makes (.portTrainingDone p ⟨true, 0⟩) s (fun m' => m'.get (portState p) = 3 ∧ (m'.oport p).expect = 0 ∧ m'.linked = true) ∧
          exec (.portTrainingDone p ⟨false, 0⟩) s = .next { s with m := m.put (portState p) (if st = 4 then 5 else 1) }) ∧
        (∀ lane, lane < 16 → m.get (portLanes p) = 0 → shas m.fuses.spareLanes p = false →
          Makes (.portTrainingDone p ⟨true, BitVec.ofNat 17 (2 ^ lane)⟩) s (fun m' =>
            m'.get (portState p) = 3 ∧ m'.get (portLanes p) = 2 ^ lane ∧ m'.get (portSpare p) = 1)) ∧
        (∀ ok (bad : BitVec 17) i j, i < j → bad.getLsbD i = true → bad.getLsbD j = true →
          Makes (.portTrainingDone p ⟨ok, bad⟩) s (fun m' => m'.get (portState p) = 5))) ∧
      (∀ load : BitVec 3, exec (.adaptiveLoadReport p load) s = .next { s with m := m.put (portLoad p) load.toNat }))

/-- A packet at an ingress edge, no drain running (R248, R250, R254, R257, R261, R277, R312): one in transit goes on by its route, in its own
epoch's table, with one more hop; one that has crossed 31 links, or is malformed, goes no further, and one of a version that has retired is
refused; with injection open, a request of a company that has its JOB and passes the checks enters the mesh; a duplicate is dropped and
counted; a reply frees its tag and goes to the requester's cell. (That HOPS 30 at arrival means 31 links crossed, and which versions have
retired, are the model's readings: log entry 53.) -/
def Obligations.PacketArrival : Prop :=
  ∀ (s : State) (p : Fin 48) (fr : Frame) (rest : List Frame),
    s.m.portFitted p = true → (s.m.oport p).ingress = fr :: rest → s.m.isSet shDraining = false →
    let m := s.m
    let m1 := m.setOport p { m.oport p with ingress := rest }
    let i : Instr := .shedinPacketArrival p
    let x := m.flow (fSrc fr) (fTc fr)
    let acked := m1.setFlow (fSrc fr) (fTc fr) { x with acked := fAck fr }
    let taken := (m1.setFlow (fSrc fr) (fTc fr) (flowTake { x with acked := fAck fr } (fSeq fr))).countShedin 2
    (frameOk fr = false → isGroup fr = true ∨ 7 ≤ fKind fr → exec i s = .next { s with m := m1 }) ∧
    (frameOk fr = true → isGroup fr = false →
      (fDst fr ≠ m.get devNum →
        (30 ≤ fHops fr → 7 ≤ fKind fr → exec i s = .next { s with m := m1.countPort p 8 1 }) ∧
        (fHops fr < 30 → fEpoch fr ≠ m.epoch → m.retired = true → exec i s = .next { s with m := m1.bounce fr }) ∧
        (∀ q, fHops fr < 30 → fEpoch fr = m.epoch ∨ m.retired = false → m.liveRouters (optRouters p) ≠ [] → RoutesTo m fr q → LeavesAt m q →
          Makes i s (fun m' => (m'.oport p).ingress = rest ∧ m'.out = m.out ++ [.frame q (stamp (m.oport q) (setW0 fr 57 53 (fHops fr + 1)))]))) ∧
      (fDst fr = m.get devNum → x.held = [] →
        (∀ c, fKind fr ≤ 3 → mget 0 m.peers (fSrc fr) = fDgen fr + 1 → isDup { x with acked := fAck fr } (fSeq fr) = false →
          m.isSet injEn = true → m.jobCo (fJob fr) = some c → m.checkRemote c (m.frameReq fr c) = 0 →
          exec i s = .next { s with m := (if fKind fr = 1 then taken else taken.addWhy c 4).remoteGo p (m.frameReq fr c) }) ∧
        (4 ≤ fKind fr ∧ fKind fr ≤ 7 → isDup { x with acked := fAck fr } (fSeq fr) = true →
          exec i s = .next { s with m := acked.countShedin 5 }) ∧
        (∀ u f l a, 4 ≤ fKind fr ∧ fKind fr ≤ 7 → isDup { x with acked := fAck fr } (fSeq fr) = false → m.isSet injEn = true →
          m.tag (fTag fr) = some u → u.dead = false → ownerCell u.req.owner = some (f, l) → m.tagWait = [] →
          m.attach (optRouters p) ((cellRouter f l).1 + (cellRouter f l).2) = some a →
          Makes i s (fun m' => m'.tag (fTag fr) = none ∧
            let r := tagReply u fr
            m'.routers = (m.atRouter a.1 a.2 ⟨true, (repShape r).1, (repShape r).2, (cellRouter f l).1, (cellRouter f l).2,
              .cell f l, u.req.co, .rep r⟩).routers))))

/-- Flows, tags and bounces (R251, R252, R254, R255, R261, R262, R277): with injection open a flow acknowledgement tells the mark; a packet
resident too long is taken out; a request without a reply frees its tag and ends with 0x02, which its edge sends to the requester; the quiet
time after a reset ends; at the end of a drain the old epoch's packets that still wait are refused; a bounced packet goes out again in the
bounce's epoch with HOPS 0; with injection closed neither it nor an acknowledgement does. -/
def Obligations.ShedinTimers : Prop :=
  ∀ (s : State),
    let m := s.m
    (∀ (dev : BitVec 12) (tc : Bool) q, let x := m.flow dev.toNat (if tc then 1 else 0)
      (m.mayInject = false → exec (.flowAcknowledgement dev tc) s = .next s) ∧
      (m.mayInject = true → x.mark ≠ x.told → (∀ fr, fDst fr = dev.toNat → fEpoch fr = m.epoch → RoutesTo m fr q) → LeavesAt m q →
      Makes (.flowAcknowledgement dev tc) s (fun m' => (m'.flow dev.toNat (if tc then 1 else 0)) = { x with told := x.mark } ∧
        ∃ fr, m'.out = m.out ++ [.frame q fr] ∧ fKind fr = 8 ∧ fDst fr = dev.toNat ∧ fAck fr = x.mark % 2 ^ 16))) ∧
    (∀ (p : Fin 48) i fr, m.portFitted p = true → (m.oport p).ingress[i]? = some fr →
      Makes (.residenceLimit p .ingress i) s (fun m' => (m'.oport p).ingress = (m.oport p).ingress.eraseIdx i)) ∧
    (∀ (tag : BitVec 18) u f l, m.tag tag.toNat = some u → u.dead = false → ownerCell u.req.owner = some (f, l) → m.tagWait = [] →
      let rep : Reply := ⟨u.req.owner, 2, [], [], u.req.gens⟩
      let m1 := { m with tags := merase m.tags tag.toNat }
      let m2 := m1.put tagsBusy m1.tags.length
      (∀ a, m.attach (optRouters u.port) (u.mx + u.my) = some a → 
        let m3 := m2.atRouter a.1 a.2 ⟨true, (repShape rep).1, (repShape rep).2, (cellRouter f l).1, (cellRouter f l).2, .cell f l, u.req.co, .rep rep⟩
        exec (.requestTimeout tag) s = .next { s with m := m3 }) ∧
      (m.attach (optRouters u.port) (u.mx + u.my) = none →
        let m3 := m2.setCell f l { m.cell f l with replies := (m.cell f l).replies ++ [rep] }
        exec (.requestTimeout tag) s = .next { s with m := m3 })) ∧
    (m.linked = true → Makes .injectionQuietEnd s (fun m' => m'.quiet = false)) ∧
    (m.isSet shDraining = true → Makes .drainRetire s (fun m' => m'.get shDraining = 0 ∧ m'.get drainTally = 0 ∧ m'.retired = true ∧
      ∀ p, p < 48 → (m'.oport p).ingress = (m.oport p).ingress.filter (fun fr =>
        isGroup fr || decide (fEpoch fr = m.epoch ∨ fDst fr = m.get devNum)))) ∧
    (m.mayInject = false → exec .bounceReinject s = .next s) ∧
    (∀ b bs q, m.bounces = b :: bs → m.mayInject = true →
      let fr := setW0 (setW0 (bounced b) 59 59 (if fEpoch b then 1 else 0)) 57 53 0
      let x := m.flow (fDst fr) (fTc fr)
      isSequenced fr = true → RoutesTo m fr q → LeavesAt m q → x.held = [] → (fSeq fr + 65536 - x.acked) % 65536 < 32768 →
      Makes .bounceReinject s (fun m' => m'.bounces = bs ∧
        m'.out = m.out ++ [.frame q (stamp (m.oport q) (setW1 fr 47 32 x.mark))]))

/-- Epochs, tables, injection and ledgers (R259, R260, R265, R277): a write of the inactive version is stored, and the version is retired no
more (log entry 53), one of the active or the draining version sets TABLE_LOST; FLIP inverts the epoch, sets DRAINING and counts the residents, or sets FLIP_LOST; INJ_EN is
stored; what is owed to a ledger is added to it. -/
def Obligations.EpochsAndLedgers : Prop :=
  ∀ (s : State), s.m.pfAll = true →
    let m := s.m
    (∀ (tb : Bool) (dev : BitVec 12) v,
      (tb ≠ m.epoch → m.isSet shDraining = false → bits v 62 61 ≠ 3 → (∀ i, i < 4 → bits v (6 * i + 5) (6 * i) ≤ 47) →
        Makes (.routeTableWrite tb dev v) s (fun m' => bits (m'.routeEntry tb dev.toNat) 63 61 = bits v 63 61 ∧
          bits (m'.routeEntry tb dev.toNat) 25 0 = bits v 25 0 ∧ m'.retired = false ∧ OnlyRegs m m' [routeOff tb dev.toNat])) ∧
      (tb = m.epoch ∨ m.isSet shDraining = true → exec (.routeTableWrite tb dev v) s = .next { s with m := m.put tableLost 1 })) ∧
    (∀ v : Word32, v.getLsbD 2 = true → m.tagWait = [] → (∀ e ∈ m.flows, e.2.held = []) →
      (m.isSet shDraining = false → Makes (.flip v) s (fun m' => m'.get injEpoch = 1 - m.get injEpoch ∧ m'.get shDraining = 1 ∧
        m'.get drainTally = min 0xFFFF (m.residents m.epoch) ∧ m'.get injEn = bits v 0 0)) ∧
      (m.isSet shDraining = true → Makes (.flip v) s (fun m' => m'.get injEpoch = m.get injEpoch ∧ m'.get flipLost = 1))) ∧
    (∀ v : Word32, v.getLsbD 2 = false → m.tagWait = [] → Makes (.injEnWrite v) s (fun m' =>
      m'.get injEn = bits v 0 0 ∧ m'.get injEpoch = m.get injEpoch)) ∧
    (∀ (co : Fin 16) (l : BitVec 12), Makes (.ledgerAddition co l) s (fun m' =>
      bits (m'.reg (ledgerOff co l.toNat)) 31 0 =
        (bits (m.reg (ledgerOff co l.toNat)) 31 0 + mget 0 m.ledAdds (co * 4096 + l.toNat)) % 2 ^ 32 ∧
      mget 0 m'.ledAdds (co * 4096 + l.toNat) = 0))

/-- Group operations (R267 to R272): CHORUS_GO queues a descriptor, 64 at most; one that cannot be read is dropped with BAD_DESC, one of a
group that is absent gets 0x14 in its DONE word, a good one opens its round, whose number is late no more; the multicast root reads a chunk and
sends it on, with the descriptor's DST beside the header (log entry 49); a chorus node that holds every input combines them in order and sends the result on; an abandoned round is closed. -/
def Obligations.GroupOperations : Prop :=
  ∀ (s : State),
    let m := s.m
    (∀ (co : Fin 16) v, m.prompterUp = true → m.isSet (cdEn co) = true →
      ((m.co co).chorus.length < 64 → Makes (.chorusGo co .pf v) s (fun m' =>
        (m'.co co).chorus = (m.co co).chorus ++ [bits v 47 0] ∧ m'.get (chWaiting co) = (m.co co).chorus.length + 1)) ∧
      (64 ≤ (m.co co).chorus.length → exec (.chorusGo co .pf v) s = .next { s with m := m.put (chGoLost co) 1 })) ∧
    (∀ (co : Fin 16) off rest, (m.co co).chorus = off :: rest → rest.length < 64 →
      let rd := m.coRead co off 64
      let n := ((if off % 64 = 0 then rd.1 else m).modCo co (fun x => { x with chorus := rest })).put (chWaiting co) rest.length
      let r := rd.1
      (rd.2 = none ∨ off % 64 ≠ 0 → exec (.groupDescriptorStart co) s = .next { s with m := n.put (chBadDesc co) 1 }) ∧
      (∀ b, off % 64 = 0 → rd.2 = some b → r.descBad co b = false → let d := parseDesc co b
        (r.gValid d.group = false ∨ r.gJob d.group ≠ r.get (sjJob co) →
          exec (.groupDescriptorStart co) s = .next { s with m := n.writeDone d 0x14 0 }) ∧
        (r.gValid d.group = true → r.gJob d.group = r.get (sjJob co) → (d.op = 2 ↔ r.gChorus d.group = true) →
          (d.op = 1 → r.gRoot d.group = true) → r.round d.group = none →
          let x : Round := ⟨some d, d.round, d.bytes / 512, [], 0, 0, 0, 0, d.ledger, d.ledgerId, d.dst⟩
          let n1 := { n with closed := mset [] n.closed d.group ((mget [] n.closed d.group).filter (fun k => decide (k ≠ d.round))) }
          exec (.groupDescriptorStart co) s = .next { s with m := n1.setRound d.group (some x) }))) ∧
    (∀ (g : BitVec 10) k r d bs, m.round g.toNat = some r → m.gChorus g.toNat = false → m.gRoot g.toNat = true → r.desc = some d →
      k = r.sent → k + 1 < r.chunks → m.mayInject = true → let rd := m.coRead d.co (d.src + 512 * k) 512
      rd.2 = some bs → rd.1.gMember g.toNat = false →
      Makes (.multicastChunk g k) s (fun m' => m'.round g.toNat = some { r with sent := r.sent + 1, passed := r.passed + 1 } ∧
        ∀ p, rd.1.gChildren g.toNat = [p] → LeavesAt rd.1 p → ∃ fr, m'.out = rd.1.out ++ [.frame p fr] ∧ fKind fr = 10 ∧
          fr.dst = r.dst ∧ fr.payload = bytesWords bs)) ∧
    (∀ (g : BitVec 10) k r ins bs, m.round g.toNat = some r → m.gChorus g.toNat = true → m.mayInject = true → r.fail = 0 → k = r.sent → k < r.chunks →
      m.gMember g.toNat = false → m.gRoot g.toNat = false → (k = r.passed → heldDown r k = none) →
      m.inputs g.toNat k r none = some ins → combine (m.gFmt g.toNat) (m.gRedop g.toNat) 1 ins = some bs →
      Makes (.chorusChunk g k) s (fun m' =>
        m'.round g.toNat = some { r with held := r.held.filter (fun x => decide (x.port = 48 ∨ x.k ≠ k)), sent := r.sent + 1 } ∧
        (LeavesAt m (m.gParent g.toNat) → ∃ fr, m'.out = m.out ++ [.frame (m.gParent g.toNat) fr] ∧ fKind fr = 11 ∧
          fr.payload = bytesWords bs))) ∧
    (∀ (g : BitVec 10) r, m.round g.toNat = some r → m.gChorus g.toNat = false ∨ m.mayInject = true → Makes (.roundAbandon g) s (fun m' =>
      m'.round g.toNat = none ∧ m'.hasClosed g.toNat r.round = true))

/-- Holds and the job number (R273, R274, R278): RESUME clears the hold and starts the job again; ABANDON begins the stop whose run
completion carries 0x0402 and the device; both do nothing unless a job is held; SHEDIN_JOB stores a number in EMPTY, and says
so where it cannot. -/
def Obligations.HoldsAndJobNumber : Prop :=
  ∀ (s : State) (co : Fin 16) (v : Word), s.m.prompterUp = true →
    let m := s.m
    (m.coState co = stHeld → (m.co co).reset = none →
      (v.getLsbD 1 = true → v.getLsbD 2 = false → (m.co co).heldAt = false → (∀ p ∈ m.prodCells co,
          (∀ a ∈ (m.cell p.1 p.2).sc.outst, a.kept = false) ∧ ∀ q ∈ (m.cell p.1 p.2).fly.reqs, q.kept = false) →
        Makes (.resume co .pf v) s (fun m' => m'.coState co = stRunning ∧ m'.get (holdHeld co) = 0 ∧ m'.routers = m.routers)) ∧
      (v.getLsbD 1 = false → v.getLsbD 2 = true → (m.co co).change = none → Makes (.abandon co .pf v) s (fun m' =>
        m'.get (gsBusy co) = 1 ∧ ∃ r, (m'.co co).reset = some r ∧ r.level = 1 ∧ r.status = 0x402 ∧
          r.info = BitVec.ofNat 64 (m.get (holdDevice co))))) ∧
    (m.coState co ≠ stHeld → exec (.resume co .pf v) s = .next s ∧ exec (.abandon co .pf v) s = .next s) ∧
    (let j := bits v 15 0
     j ≠ m.get (sjJob co) →
     (m.coState co = stEmpty → (j = 0 ∨ m.jobTaken co j = false) → Makes (.shedinJobWrite co .pf v) s (fun m' =>
       m'.get (sjJob co) = j ∧ m'.get (sjRemoteCell co) = bits v 16 16)) ∧
     (m.coState co = stEmpty → j ≠ 0 → m.jobTaken co j = true → Makes (.shedinJobWrite co .pf v) s (fun m' =>
       m'.get (sjJob co) = m.get (sjJob co) ∧ m'.get (sjClash co) = 1)) ∧
     (m.coState co ≠ stEmpty → Makes (.shedinJobWrite co .pf v) s (fun m' =>
       m'.get (sjJob co) = m.get (sjJob co) ∧ m'.get (sjLost co) = 1)))

/-! ### Rings, cues and runs (12) -/

/-- Polls, cue reads, completion entries and messages (R283, R284, R286 to R288): a poll reads the board in one request or two; its data
gives a completion ring's HEAD and a command ring's TAIL, whose cues are read as far as 8 ahead of HEAD, or which stops on an overrun; the
sixteenth failure in a row ends polling; a completed cue's entry is written in two writes with its PHASE; a message that is due writes its
vector's data to its address, or, masked, sets the pending bit. -/
def Obligations.PollsEntriesAndMessages : Prop :=
  ∀ (s : State) (co : Fin 16),
    let m := s.m
    let x := m.co co
    let port := m.get (cdPort co)
    let fn := m.get (cdFunc co)
    let board := (m.reg (cbAddr co) >>> 12) <<< 12
    let n := (m.get (cbSpan co) + 1) * 64
    (m.isSet (cbEn co) = true → m.hostUp co = true → m.ghost = false → x.polls < 4 → Makes (.poll co) s (fun m' =>
      (m'.co co).polls = x.polls + 1 ∧ m'.out = m.out ++ (if n ≤ 512 then [.hostRead port fn board n]
        else [.hostRead port fn board 512, .hostRead port fn (board + 512) (n - 512)]))) ∧
    (∀ ok ws, 0 < x.stale → 0 < x.polls → Makes (.pollData co ok ws) s (fun m' => m'.regs = m.regs ∧ m'.out = m.out ∧
      m'.co co = { x with polls := x.polls - 1, stale := x.stale - 1 })) ∧
    (∀ ws, x.stale = 0 → 0 < x.polls →
      (x.pollFails < 15 → Makes (.pollData co false ws) s (fun m' => m'.regs = m.regs ∧ (m'.co co).pollFails = x.pollFails + 1)) ∧
      (15 ≤ x.pollFails → Makes (.pollData co false ws) s (fun m' => m'.get (cbEn co) = 0 ∧ m'.get (feEvent co 0) = 1))) ∧
    (∀ ws (r : Fin 64), x.stale = 0 → 0 < x.polls → 2 * r.val + 1 < ws.length → m.isSet (cmdEn co r) = true →
      (∀ k, k < 64 → (m.ring co k).overrun = none ∧ (m.ring co k).cues = [] ∧ (k ≠ r.val → m.isSet (cmdEn co k) = false)) →
      let g := m.ring co r
      let size := 2 ^ m.get (cmdSize co r)
      let head := m.get (cmdHead co r)
      let ahead := (bits ((ws[2 * r.val]?).getD 0) 31 0 + 2 ^ 32 - head) % 2 ^ 32
      let more := Nat.min ahead 8 - (g.fetched + 2 ^ 32 - head) % 2 ^ 32
      (ahead ≤ size → 0 < more → g.fetched % size + more ≤ size → Makes (.pollData co true ws) s (fun m' =>
        m'.out = m.out ++ [.hostRead port fn (((m.reg (cmdOff co r) >>> 12) <<< 12) + BitVec.ofNat 64 (g.fetched % size * 64)) (more * 64)] ∧
          (m'.ring co r).fetched = (g.fetched + more) % 2 ^ 32 ∧ (m'.ring co r).reads = g.reads ++ [(g.fetched, more)] ∧
          ∀ k, 2 * k + 1 < ws.length → k < 64 → m.isSet (cplEn co k) = true → (m'.cpl co k).head = bits ((ws[2 * k + 1]?).getD 0) 31 0)) ∧
      (size < ahead → g.cur.isSome = true → Makes (.pollData co true ws) s (fun m' =>
        m'.get (cmdEn co r) = 0 ∧ m'.get (cmdErr co r) = 1 ∧ m'.get (feEvent co 1) = 1 ∧
          (m'.ring co r).overrun = some g.fetched ∧ m'.out = m.out))) ∧
    (∀ (r : Fin 64) ws i k rest, (m.ring co r).reads = (i, k) :: rest → (m.ring co r).cur.isSome = true →
      let m1 := m.count 10 3 port 0 0 k
      let g := m.ring co r
      let read := (List.range k).map (fun j => Cue.mk ((i + j) % 2 ^ 32) (some (slice (wordBytes ws) (64 * j) 64)))
      exec (.cueReadReturn co r true ws) s = .next { s with m := m1.setRing co r { g with reads := rest, cues := g.cues ++ read } }) ∧
    (∀ (r k : Fin 64) q b st info, (m.ring co r).cur = some q → q.bytes = some b → (m.ring co r).dest = k → (m.ring co r).cues = [] →
      (m.ring co r).overrun = none → m.hostUp co = true → let m' := m.doneCue co r st info
        let tail := m.get (cplTail co k)
        let size := 2 ^ m.get (cplSize co k)
        let entry := toLe q.index 4 ++ toLe r 1 ++ b.take 1 ++ toLe st 2 ++ slice b 8 8 ++ toLe info.toNat 8 ++
          toLe ((m.get (cmdHead co r) + 1) % 2 ^ 32) 4 ++ toLe (m.get (gsCgen co)) 1 ++ toLe 0 2 ++ toLe ((tail / size + 1) % 2 * 128) 1
        let a := ((m.reg (cplOff co k) >>> 12) <<< 12) + BitVec.ofNat 64 (tail % size * 32)
        b.length = 64 → m'.out = m.out ++ [.hostWrite port fn a (entry.take 24), .hostWrite port fn (a + 24) (entry.drop 24)] ∧
          m'.get (cmdHead co r) = (m.get (cmdHead co r) + 1) % 2 ^ 32 ∧ m'.get (cplTail co k) = (tail + 1) % 2 ^ 32 ∧
          (m'.ring co r).cur = none) ∧
    (∀ (k : Fin 64) up, let v := m.get (cplVector co k)
      let z := m.cpl co k
      let key := msixKey port fn v
      0 < z.unsignalled → up = true ∨ m.get (cplImodUs co k) = 0 ∨ m.get (cplImodCount co k) ≤ z.unsignalled → v ≠ 0x7F →
      m.hostUp co = true → Makes (.msiXMessage co (.ring k) up) s (fun m' =>
        (m.vectorMasked key = false → m'.out = m.out ++ [.msix port fn v (mget 0 m.msixAddr key) ((m.msixWord key).setWidth 32)]) ∧
        (m.vectorMasked key = true → m'.out = m.out ∧ shas m'.msixPend key = true) ∧
        m'.cpl co k = { z with unsignalled := z.unsignalled - (if m.get (cplImodUs co k) = 0 then 1 else
          if up then z.unsignalled else Nat.max 1 (m.get (cplImodCount co k))) })) ∧
    (∀ up, x.evMsg = true → m.hostUp co = true → let key := msixKey port fn 0
      Makes (.msiXMessage co .events up) s (fun m' =>
        (m.vectorMasked key = false → m'.out = m.out ++ [.msix port fn 0 (mget 0 m.msixAddr key) ((m.msixWord key).setWidth 32)]) ∧
        (m.vectorMasked key = true → m'.out = m.out ∧ shas m'.msixPend key = true) ∧ m'.co co = { x with evMsg := false }))

/-- Cues (R27, R28, R31, R168, R289 to R291, R298): a reserved bit or value gives 0x0101, a bad address 0x0102; NOP; LOAD, refused or
begun, and its end, after the second reads; UNLOAD, begun, waiting (for a load, a job, a cue that refers to the production) and ended; SCENE without a job, waiting, with a bad scene, begun; WAIT. -/
def Obligations.CueResults : Prop :=
  ∀ (s : State) (co : Fin 16) (r : Fin 64) (new : Bool) (b : List Byte) (m : Mod),
    let done := fun (m : Mod) (st : Nat) (info : Word) =>
      (Host.Outcome.next { s with m := m.doneCue co r st info } : Host.Outcome State Fault Refusal)
    let st := m.coState co
    (CueAt s co r 1 new b m → (new = true → cueBad b [] = true → exec (.nop co r) s = done m 0x101 0) ∧
      (cueBad b [] = false → exec (.nop co r) s = done m 0 0)) ∧
    (∀ rd, CueAt s co r 2 true b m → s.m.prompterUp = true →
      let size := le b 0x18 8
      let at_ := BitVec.ofNat 64 (le b 0x10 8)
      let m1 := m.loadReads co at_ (BitVec.ofNat 64 (le b 0x20 8)) rd.image size (le b 0x28 2)
      (loadBad b = true → exec (.load co r rd) s = done m 0x101 0) ∧
      (loadBad b = false → (le b 0x10 8 = 0 ∨ le b 0x10 8 % 4096 ≠ 0) → exec (.load co r rd) s = done m 0x102 0) ∧
      (loadBad b = false → loadAddr b = false →
        (st ≠ 0 → exec (.load co r rd) s = done m 0x201 0xFFFF) ∧
        (st = 0 → ∀ code info, m1.checkLoad co rd size (le b 0x28 2) = some (code, info) → exec (.load co r rd) s = done m1 code info) ∧
        (st = 0 → m1.checkLoad co rd size (le b 0x28 2) = none → Makes (.load co r rd) s (fun m' => m'.coState co = 1 ∧
          (m'.co co).loading = some ⟨r, at_, slice rd.image 0 size, rd.groups⟩)))) ∧
    (∀ rd x, (s.m.co co).loading = some x → s.m.prompterUp = true → s.m.rehearses co = false → (s.m.co co).reset = none →
      let m1 := s.m.readSections co x.at_ x.image
      let changed := (sectsOf x.image).find? (fun s => decide ((crc32 (s.data rd.image)).toNat ≠ s.crc))
      (rd.ok = false → exec (.loadFinish co rd) s = .next { s with m := m1.loadFails co 0x103 0 false }) ∧
      (∀ z, rd.ok = true → changed = some z →
        exec (.loadFinish co rd) s = .next { s with m := m1.loadFails co 0x210 (BitVec.ofNat 64 (z.i % 65536)) false }) ∧
      (rd.ok = true → changed = none → ∃ m1 : Mod, exec (.loadFinish co rd) s = .next { s with m := m1.endLoad co x.ring 0 0 false } ∧
        m1.coState co = 2 ∧ (m1.co co).prod.isSome = true ∧ (m1.co co).loading = none ∧ m1.get (reloadNeeded co) = 0 ∧
        m1.get (intervalValid co) = 0)) ∧
    (CueAt s co r 4 new b m → s.m.prompterUp = true → cueBad b [] = false → let freed := m.release co
      (st = 2 → m.refersElse co r = true → exec (.unload co r) s = .next { s with m := m }) ∧
      (st = 2 → m.refersElse co r = false → Makes (.unload co r) s (fun m' => m'.coState co = 5 ∧ (m'.co co).unloading = some r.val)) ∧
      (st = 5 → (m.co co).unloading = some r.val → freed.hostUp co = true → exec (.unload co r) s = done freed 0 0 ∧
        freed.coState co = 0 ∧ (freed.co co).prod = none) ∧
      (st = 5 → (m.co co).unloading ≠ some r.val → exec (.unload co r) s = done m 0x106 0) ∧
      (st = 0 → exec (.unload co r) s = done m 0x104 0) ∧
      (st = 1 ∨ st = 3 ∨ st = 4 → exec (.unload co r) s = .next { s with m := m })) ∧
    (CueAt s co r 5 new b m → cueBad b [(0, 4)] = false → le b 0x11 1 ≤ 1 → 1 ≤ le b 0x12 1 → 1 ≤ le b 0x13 1 → m.changeOf co r = false →
      let m6 := m.put (scResult co) 6
      let m5 := m.put (scResult co) 5
      let t := le b 0x10 1
      (m.hasJob co = false → new = true → exec (.scene co r) s = done m6 0x506 (m6.infoScene co)) ∧
      (m.hasJob co = true → m.get (scBusy co) = 1 → exec (.scene co r) s = .next { s with m := m }) ∧
      (m.hasJob co = true → m.get (scBusy co) = 0 → m.hasScene co t = false → exec (.scene co r) s = done m5 0x505 (m5.infoScene co)) ∧
      (m.hasJob co = true → m.get (scBusy co) = 0 → m.hasScene co t = true → exec (.scene co r) s =
        .next { s with m := m.sceneBegin co t (decide (le b 0x11 1 = 1)) (le b 0x12 1) (le b 0x13 1) (some r.val) true })) ∧
    (CueAt s co r 7 new b m → cueBad b [(0, 1), (4, 4)] = false → le b 0x10 1 ≤ 63 →
      let k := le b 0x10 1
      let reached := 1 ≤ (m.get (cmdHead co k) + 2 ^ 32 - le b 0x14 4) % 2 ^ 32 ∧
        (m.get (cmdHead co k) + 2 ^ 32 - le b 0x14 4) % 2 ^ 32 < 2 ^ 31
      (new = true → (k = r.val ∨ m.isSet (cmdEn co k) = false) → exec (.wait co r) s = done m 0x107 0) ∧
      ((new = false ∨ (k ≠ r.val ∧ m.isSet (cmdEn co k) = true)) →
        (reached → exec (.wait co r) s = done m 0 0) ∧
        (¬reached → m.isSet (cmdEn co k) = false → (m.ring co k).cur = none → exec (.wait co r) s = done m 0x107 0) ∧
        (¬reached → (m.isSet (cmdEn co k) = true ∨ (m.ring co k).cur.isSome = true) → exec (.wait co r) s = .next { s with m := m })))

/-- Runs and their ends (R29, R150, R174, R300, R301): RUN by the company's state and START, or begun: the scene installed, every job cell's
core started at its ENTRY, refused while the company serves an encore; STOP at an interval, and now; the job's own end, and an interval's once
the job's accesses have ended, with their completions; the run's time limit. -/
def Obligations.RunsAndStops : Prop :=
  ∀ (s : State) (co : Fin 16) (r : Fin 64) (new : Bool) (b : List Byte) (m : Mod),
    let done := fun (m : Mod) (st : Nat) (info : Word) =>
      (Host.Outcome.next { s with m := m.doneCue co r st info } : Host.Outcome State Fault Refusal)
    let st := m.coState co
    (CueAt s co r 3 true b m → cueBad b [(0, 1), (2, 2), (16, 32)] = false → let s0 := le b 0x10 1
      ((m.co co).prod = none → exec (.run co r) s = done m (if st = 5 then 0x106 else 0x104) 0) ∧
      (∀ p, (m.co co).prod = some p →
        (st = 3 ∨ st = 4 ∨ (m.co co).enc.serving = true → exec (.run co r) s = done m 0x105 0) ∧
        ((m.co co).enc.serving = false →
        (st = 5 → exec (.run co r) s = done m 0x106 0) ∧
        (st = 2 → m.get (reloadNeeded co) = 1 → exec (.run co r) s = done m 0x109 0) ∧
        (st = 2 → m.get (reloadNeeded co) = 0 → s0 ≠ 0 → m.isInterval co s0 = false → exec (.run co r) s = done m 0x10A 0) ∧
        (st = 2 → m.get (reloadNeeded co) = 0 → s0 = 0 ∨ m.isInterval co s0 = true → Makes (.run co r) s (fun m' =>
          m'.coState co = 3 ∧ m'.get (scCurrent co) = s0 ∧ (∃ j, (m'.co co).job = some j ∧ j.ring = r.val ∧ j.start = s0 ∧ j.first = none) ∧
          ∀ q ∈ p.cells, (m'.cell q.1 q.2).sc.run = .running ∧
            (m'.cell q.1 q.2).sc.pc = ((p.scenes[s0]?).map (·.2)).getD 0))))) ∧
    (CueAt s co r 6 new b m → cueBad b [(0, 1)] = false →
      (le b 0x10 1 = 0 → m.hasJob co = true → let m1 := m.put (stopPending co) 1
        exec (.stopAtInterval co r) s = done m1 0 0) ∧
      (le b 0x10 1 = 0 → m.hasJob co = false → exec (.stopAtInterval co r) s = done m 0x10B 0) ∧
      (le b 0x10 1 = 1 → m.hasJob co = false → exec (.stopNow co r) s = done m (if new then 0x10B else 0) 0) ∧
      (le b 0x10 1 = 1 → new = true → m.hasJob co = true → m.allEnded co = false → (m.co co).reset = none → (m.co co).change = none →
        Makes (.stopNow co r) s (fun m' => StopsWith m' co 0x305 0))) ∧
    (∀ j, s.m.coState co = 3 → (s.m.co co).reset = none → (s.m.co co).change = none → (s.m.co co).job = some j → s.m.allEnded co = true →
      s.m.get (esStaging co) = 0 → s.m.get (esSuspect co) = 0 → s.m.hostUp co = true →
      ∃ m1 : Mod, exec (.jobEnd co) s = .next { s with m := m1.doneCue co j.ring (runStatus j).1 (runStatus j).2 } ∧
        m1.coState co = 2 ∧ (m1.co co).job = none ∧ m1.get (stopPending co) = 0 ∧
        m1.get (scDiscarded co) = Nat.min (s.m.rigTokens co) 0xFFFFFFFF) ∧
    (∀ j g, (s.m.co co).change = some g → g.phase = 6 → (s.m.co co).reset = none → s.m.accessesOut co = false → (s.m.co co).job = some j →
      s.m.hostUp co = true →
      ∃ m1 : Mod, exec (.jobEnd co) s = .next { s with m := m1.doneCue co j.ring 0x304 (BitVec.ofNat 64 g.target) } ∧
        m1.coState co = 2 ∧ (m1.co co).job = none ∧ m1.get (stopPending co) = 0) ∧
    (s.m.coState co = 3 → s.m.get (esStaging co) = 0 → s.m.runLimit co ≠ 0 → (s.m.co co).reset = none → (s.m.co co).change = none →
      Makes (.runTimeout co) s (fun m' => StopsWith m' co 0x306 0))

/-- Ring registers, the host window and host ports (R281, R284, R285, R303, R437, R438, R463): what breaks the rules of R285 or R303 is
discarded and sets CFG_LOST; enabling a ring starts its counts at 0, disabling a command ring drops the cues not begun; an access of the
window that its port serves next goes out at its host address, its reply entering the mesh at the requester's attachment router; PERST takes the
port's companies, SR-IOV its functions. -/
def Obligations.RingRegistersAndHostPorts : Prop :=
  ∀ (s : State) (co : Fin 16),
    let m := s.m
    let lost := fun (i : Instr) (o : Nat) => Makes i s (fun m' => m'.get (feEvent co 2) = 1 ∧ m'.reg o = m.reg o)
    (m.pfAll = true →
      (∀ v, let outside := ∃ r, r < 64 ∧ (m.isSet (cmdEn co r) = true ∨ m.isSet (cplEn co r) = true) ∧ bits v 3 0 < r / 4
        (outside → lost (.cbCtrlWrite co .pf v) (ringBase co + 8)) ∧
        (¬outside → Makes (.cbCtrlWrite co .pf v) s (fun m' => m'.get (cbEn co) = bits v 31 31 ∧ m'.get (cbSpan co) = bits v 3 0))) ∧
      (∀ (r : Fin 64) (v : Word), let named := bits v 29 24
        (m.isSet (cmdEn co r) = true →
          lost (.ringConfigWrite co r false true .pf v) (cmdOff co r) ∧
          (v.getLsbD 31 = true → lost (.ringConfigWrite co r false false .pf v) (cmdOff co r + 8)) ∧
          (v.getLsbD 31 = false → Makes (.ringConfigWrite co r false false .pf v) s (fun m' => m'.get (cmdEn co r) = 0 ∧
            m'.ring co r = { m.ring co r with reads := [], cues := [] }))) ∧
        (m.isSet (cmdEn co r) = false →
          Makes (.ringConfigWrite co r false true .pf v) s (fun m' => bits (m'.reg (cmdOff co r)) 63 12 = bits v 63 12) ∧
          (v.getLsbD 31 = true →
            (m.isSet (ctReady co) = false ∨ m.get (cbSpan co) < r.val / 4 ∨ m.isSet (cplEn co named) = false →
              lost (.ringConfigWrite co r false false .pf v) (cmdOff co r + 8)) ∧
            (m.isSet (ctReady co) = true → r.val / 4 ≤ m.get (cbSpan co) → m.isSet (cplEn co named) = true →
              Makes (.ringConfigWrite co r false false .pf v) s (fun m' => m'.get (cmdEn co r) = 1 ∧ m'.get (cmdHead co r) = 0 ∧
                m'.get (cmdCpl co r) = named ∧ (6 ≤ bits v 23 19 → bits v 23 19 ≤ 16 → m'.get (cmdSize co r) = bits v 23 19) ∧
                (m'.ring co r).fetched = 0 ∧ (m'.ring co r).cues = [])))) ∧
        (m.isSet (cplEn co r) = true → v.getLsbD 31 = false →
          ((∃ k, k < 64 ∧ m.isSet (cmdEn co k) = true ∧ m.get (cmdCpl co k) = r.val) ∨ m.cplBusy co r = true →
            lost (.ringConfigWrite co r true false .pf v) (cplOff co r + 8)) ∧
          ((∀ k, k < 64 → m.isSet (cmdEn co k) = false ∨ m.get (cmdCpl co k) ≠ r.val) → m.cplBusy co r = false →
            Makes (.ringConfigWrite co r true false .pf v) s (fun m' => m'.get (cplEn co r) = 0))) ∧
        (m.isSet (cplEn co r) = false → v.getLsbD 31 = true → m.isSet (ctReady co) = true → r.val / 4 ≤ m.get (cbSpan co) →
          Makes (.ringConfigWrite co r true false .pf v) s (fun m' => m'.get (cplEn co r) = 1 ∧ m'.get (cplTail co r) = 0 ∧
            m'.cpl co r = .zero))) ∧
      (∀ (n : Fin 64) (v : Word),
        (m.isSet (hwinEn co n) = true → m.hasJob co = true →
          lost (.hwinCfgWrite co n true .pf v) (hwinOff co n) ∧ lost (.hwinCfgWrite co n false .pf v) (hwinOff co n + 8)) ∧
        (m.isSet (hwinEn co n) = false ∨ m.hasJob co = false →
          Makes (.hwinCfgWrite co n true .pf v) s (fun m' => bits (m'.reg (hwinOff co n)) 63 12 = bits v 63 12) ∧
          (v.getLsbD 63 = true → bits v 27 0 = 0 → lost (.hwinCfgWrite co n false .pf v) (hwinOff co n + 8)) ∧
          (v.getLsbD 63 = false ∨ bits v 27 0 ≠ 0 → Makes (.hwinCfgWrite co n false .pf v) s (fun m' =>
            m'.get (hwinEn co n) = bits v 63 63 ∧ m'.get (hwinPages co n) = bits v 27 0))))) ∧
    (∀ (hp : Fin 4) q0, mget [] m.toHost hp = [q0] → q0.req.co < 16 → ∃ arb, m.nextHost hp = some (0, arb)) ∧
    (∀ (hp : Fin 4) res i arb q0 f l at_, m.nextHost hp = some (i, arb) → (mget [] m.toHost hp)[i]? = some q0 → m.staleReq q0.req = false →
      ownerCell q0.req.owner = some (f, l) → m.attach (hostRouters hp) ((cellRouter f l).1 + (cellRouter f l).2) = some at_ →
      let m1 := { m with toHost := mset [] m.toHost hp ((mget [] m.toHost hp).eraseIdx i), hostArb := mset .zero m.hostArb hp arb }
      let q := { q0 with mx := at_.1, my := at_.2 }
      let r := q.req
      let off := faOff r.addr
      let a := ((m.reg (hwinOff r.co (off / 2 ^ 40)) >>> 12) <<< 12) + BitVec.ofNat 64 (off % 2 ^ 40)
      let port := m.get (cdPort r.co)
      let fn := m.get (cdFunc r.co)
      let reply := fun (st : Nat) (bs : List Byte) => Reply.mk r.owner st bs [] r.gens
      (m.hostMapped r.co off (opBytes r.op) = false →
        exec (.hostWindowAccess hp res) s = .next { s with m := m1.answer q.mx q.my (reply 1 []) r.co }) ∧
      (m.hostMapped r.co off (opBytes r.op) = true → m.hostUp r.co = true →
        (∀ v, r.op = .store v → exec (.hostWindowAccess hp res) s =
          .next { s with m := (m1.emit (.hostWrite port fn a (toLe v.toNat 8))).answer q.mx q.my (reply 0 []) r.co }) ∧
        (∀ n bs, r.op = .read n → bs.length = n → n % 8 = 0 → ∃ r', exec (.hostWindowAccess hp (.data bs)) s =
          .next { s with m := (m1.emit (.hostRead port fn a n)).answer q.mx q.my r' r.co } ∧ r'.status = 0 ∧ r'.bytes = bs))) ∧
    (∀ hp : Fin 4, shas m.perstLow hp = false → m.ghost = false → m.cosOf hp (fun _ => true) = [co.val] →
      Makes (.perstAssert hp) s (fun m' => shas m'.perstLow hp = true ∧ m'.get (cbEn co) = 0 ∧ mget [] m'.toHost hp = [] ∧
        mget 0 m'.numVfs hp = 0 ∧ (∀ r, r < 64 → m'.get (cmdEn co r) = 0 ∧ m'.get (cplEn co r) = 0) ∧
        (m.hasJob co = true → (m.co co).reset = none → ∃ r, (m'.co co).reset = some r ∧ r.silent = true ∧ r.status = 0x307))) ∧
    (∀ hp : Fin 4, m.ghost = false → exec (.perstDeassert hp) s =
      let low := sdel m.perstLow hp
      let down := sdel m.linkDown hp
      .next { s with m := { m with perstLow := low, linkDown := down } }) ∧
    (∀ (hp : Fin 4) (n : Fin 17),
      Makes (.vfEnable hp n) s (fun m' => mget 0 m'.numVfs hp = Nat.max n (mget 0 m.numVfs hp)) ∧
      (m.cosOf hp (fun c => decide (n.val - 1 < m.get (cdFunc c) ∧ m.get (cdFunc c) ≤ mget 0 m.numVfs hp)) = [] →
        Makes (.vfDisable hp n) s (fun m' => mget 0 m'.numVfs hp = Nat.min (n.val - 1) (mget 0 m.numVfs hp))))

/-! ### Companies and register writes (13, 22) -/

/-- Companies (R306, R307, R310, R314, R342, R373, R389, R456): a definition is refused with DEF_LOST or enables the company over its
fields; disabling an idle one; READY; shares; the device number; the encore's set-up; a scene's operating points.
Register writes by address (R6 to R9, R308 to R310, R462): a write to a register that a command of its own names is that command; one
of a register without behaviour stores its fields; one of another width, at no register, or through a window that is closed does
nothing; nor does a virtual function's write of what the physical function alone may write. A write of a function's MSI-X table sets a vector's
address or its mask, and one unmasked sends its pending message (R280, R288; the table's layout is PCIe's: log entry 47).
Reads (R1, R7 to R9, R18, R308, R309, R360, R459): a register in its own width, the low half of a 64-bit one, zero for all else, for a
fused-off field's block and for a fused-off port's STATE, all ones while Prompter is being reset; a virtual function's window reads as the
physical function's blocks, and zero where no enabled company names the function. -/
def Obligations.CompaniesAndRegisterWrites : Prop :=
  (
    ∀ (s : State) (co : Fin 16) (v : Word), s.m.prompterUp = true →
      let m := s.m
      (m.isSet (cdEn co) = false → v.getLsbD 63 = true →
        (m.defOk co (m.defVal co v) = false → Makes (.companyEnable co .pf v) s (fun m' => m'.get (ctDefLost co) = 1 ∧ m'.get (cdEn co) = 0)) ∧
        (m.defOk co (m.defVal co v) = true → Makes (.companyEnable co .pf v) s (fun m' => m'.get (cdEn co) = 1 ∧ m'.coFields co = defFields v ∧
          (∀ f ∈ defFields v, m'.coOf f = some co.val) ∧ m'.get (ctReady co) = 0 ∧ m'.get (ctNfields co) = (defFields v).length ∧
          m'.coState co = 0 ∧ (defFields v ≠ [] → m'.power = m.power ++ [(true, defFields v)])))) ∧
      (m.isSet (cdEn co) = true → v.getLsbD 63 = false →
        (m.idleCo co = false → Makes (.companyDisable co .pf v) s (fun m' => m'.get (ctDefLost co) = 1 ∧ m'.get (cdEn co) = 1)) ∧
        (m.idleCo co = true → Makes (.companyDisable co .pf v) s (fun m' => m'.get (cdEn co) = 0 ∧ m'.get (ctReady co) = 0 ∧
          (∀ f ∈ m.coFields co, m'.coOf f = none) ∧ (m.coFields co ≠ [] → m'.power = m.power ++ [(false, m.coFields co)])))) ∧
      (m.isSet (cdEn co) = true → (∀ f ∈ m.coFields co, m.fieldUp f = true) → exec (.companyReady co) s =
        .next { s with m := m.put (ctReady co) 1 }) ∧
      (let shares := bits v 6 0 ≤ 48 ∧ bits v 14 8 ≤ 64 ∧ bits v 22 16 ≤ 64 ∧ bits v 42 32 ≤ 1024 ∧
          (m.heldGroups co).length ≤ bits v 42 32 ∧
          (m.isSet (cdEn co) = true → m.sharesFit co (m.get (cdPort co)) (bits v 6 0) (bits v 14 8) (bits v 22 16) (bits v 42 32) = true);
        (¬shares → exec (.companyShareWrite co .pf v) s = .next { s with m := m.put (ctShareLost co) 1 }) ∧
        (shares → Makes (.companyShareWrite co .pf v) s (fun m' => m'.get (csOpt co) = bits v 6 0 ∧ m'.get (csHost co) = bits v 14 8 ∧
          m'.get (csChorus co) = bits v 22 16 ∧ m'.get (csGroups co) = bits v 42 32))) ∧
      (∀ w : Word32, (m.get injEn = 1 → exec (.devNumWrite w) s = .next { s with m := m.put dsNumLost 1 }) ∧
        (m.get injEn = 0 → Makes (.devNumWrite w) s (fun m' => m'.get devNum = bits (w.setWidth 64) 11 0))) ∧
      (∀ i : Fin 16, Makes (.oppMapWrite co i .pf v) s (fun m' => ∀ k, k < 16 →
        m'.oppOf co (16 * i + k) = if bits v (4 * k + 3) (4 * k) ≤ 7 then bits v (4 * k + 3) (4 * k) else m.oppOf co (16 * i + k))) ∧
      (∀ j p, (m.co co).job = some j → (m.co co).prod = some p → bits v 39 0 % 64 = 0 → bits v 39 0 ≠ 0 →
        (j.range = none → Makes (.encLenWrite co .pf v) s (fun m' => m'.get (encLen co) = bits v 39 0 ∧
          ∃ j', (m'.co co).job = some j' ∧ j'.range = some (m.get (encOut co), bits v 39 0))) ∧
        (j.range.isSome = true → exec (.encLenWrite co .pf v) s = .next { s with m := m.put (esCfgLost co) 1 })) ∧
      (let bad := m.coState co ≠ 0 ∨ (bits v 1 0 = 1 ∧ shas (m.coFields co) (bits v 28 22) = false);
        (bad → exec (.encCtrlWrite co .pf v) s = .next { s with m := m.put (esCfgLost co) 1 }) ∧
        (¬bad → Makes (.encCtrlWrite co .pf v) s (fun m' => m'.get (encMode co) = bits v 1 0 ∧ m'.get (encField co) = bits v 28 22 ∧
          m'.get (encPartner co) = bits v 63 52)))) ∧ (
    ∀ (s : State) (co : Fin 16) (v : Word),
      let m := s.m
      let w := fun (o : Nat) => exec (.registerWrite .pf (coBase co + o) 8 v) s
      let w4 := fun (o : Nat) => exec (.registerWrite .pf (coBase co + o) 4 v) s
      w 0x210 = exec (.chorusGo co .pf v) s ∧ w4 0x200 = exec (.shedinJobWrite co .pf v) s ∧ w 0x208 = exec (.resume co .pf v) s ∧
      w 0x100 = exec (.sceneGo co .pf v) s ∧
      w 0x400 = exec (.encCtrlWrite co .pf v) s ∧ w 0x410 = exec (.encLenWrite co .pf v) s ∧ w 0x800 = exec (.companyEnable co .pf v) s ∧
      w 0x808 = exec (.companyShareWrite co .pf v) s ∧
      (∀ off n, widthOk off n = false → exec (.registerWrite .pf off n v) s = .next s) ∧
      (∀ off n, 0x20000 ≤ off → off < 0x30000 → widthOk off n = true → m.prompterUp = true →
        exec (.registerWrite .pf off n v) s = .next { s with m := m.plainWrite off v }) ∧
      (∀ (hp : Fin 4) (fn : Fin 17) off n, m.vfUp hp fn = false ∨ m.vfCo hp fn = none → exec (.registerWrite (.vf hp fn) off n v) s = .next s) ∧
      (∀ (hp : Fin 4) (fn : Fin 17) o n, o ∈ [0x800, 0x808, 0x400, 0x208, 0x200] →
        exec (.registerWrite (.vf hp fn) (0x1000 + o) n v) s = .next s) ∧
      (∀ (hp : Fin 4) (fn : Fin 17) k, let key := msixKey hp fn k
        k < 65 → m.bar2Up hp fn = true →
        Makes (.registerWrite (.bar2 hp fn) (16 * k) 8 v) s (fun m' => mget 0 m'.msixAddr key = v &&& 0xFFFFFFFFFFFFFFFC#64 ∧ m'.out = m.out) ∧
        Makes (.registerWrite (.bar2 hp fn) (16 * k + 12) 4 v) s (fun m' => m'.vectorMasked key = v.getLsbD 0 ∧
          (v.getLsbD 0 = true ∨ shas m.msixPend key = false → m'.out = m.out ∧ m'.msixPend = m.msixPend) ∧
          (v.getLsbD 0 = false → shas m.msixPend key = true → shas m'.msixPend key = false ∧
            m'.out = m.out ++ [.msix hp fn k (mget 0 m.msixAddr key) ((m.msixWord key).setWidth 32)])))) ∧ (
    ∀ (m : Mod) (co : Fin 16) (off n : Nat), m.ghost = false →
      let read := m.busRead .pf off n
      (m.prompter = 1 → m.get rtRomLoop = 0 → read = some (BitVec.ofNat 64 (2 ^ (8 * n) - 1))) ∧
      (m.prompterUp = true →
        (∀ p, p < 48 → m.portFitted p = false → ∃ w, m.busRead .pf (shBase + 0x100 + 8 * p) 8 = some w ∧ bits w 30 28 = 0) ∧
        (m.isSet (cdEn co) = false → m.busRead .pf (coBase co + 0x508) 8 = some 0) ∧
        (∀ d, regAt off = some d → (∀ f, f < 72 → m.present f = true) → off < 0x1480000 →
          ¬(shBase + 0x100 ≤ off ∧ off < shBase + 0x280) → ¬(0x30000 ≤ off ∧ off < 0x40000 ∧ off % 0x1000 = 0x508) →
          ¬(0x200100 ≤ off ∧ off < 0x200340) →
          (8 * n = d.width → off % n = 0 → read = some (readMask d (m.reg off))) ∧
          (d.width = 64 → off % 8 = 0 → m.busRead .pf off 4 = some (readMask d (m.reg off) &&& 0xFFFFFFFF#64))) ∧
        (n ≠ 4 → widthOk off n = false → read = some 0) ∧
        (∀ f o, f < 72 → m.present f = false → o < 0x10000 → m.busRead .pf (0x1000000 + f * 0x10000 + o) n = some 0) ∧
        (∀ (hp : Fin 4) (fn : Fin 17), m.vfUp hp fn = true → (∀ o, o < 0x1000 → m.busRead (.vf hp fn) o n = m.busRead .pf o n) ∧
          (m.vfCo hp fn = some co.val → ∀ o, o < 0x1000 → m.busRead (.vf hp fn) (0x1000 + o) n = m.busRead .pf (coBase co + o) n) ∧
          (m.vfCo hp fn = none → ∀ o, 0x1000 ≤ o → m.busRead (.vf hp fn) o n = some 0))))

/-! ### Clocks (14) and the management connector's pins (21) -/

/-- Start-up of the clocks (R319, R321 to R327, R399, R448): power-good samples the straps; attempts and the verdicts of Table 14-2; the trim
search, which ends at the nearer of the two codes about 3,200; delay mode; the PLL's lock starts Prompter's ROM, and one that has not locked by
the next element step fails the attempt (log entry 38); the dark state answers its code and count and restarts on command. -/
def Obligations.ClockStartUp : Prop :=
  ∀ (s : State),
    let b := s.sb
    let now := fun (b' : Standby) => (Host.Outcome.next { s with sb := b' } : Host.Outcome State Fault Refusal)
    let failed := fun (code : Nat) => now { b with phase := .idle, code := code }
    (∀ st, b.pwrEn = true → b.waitVin = false → b.phase = .off → 47000 ≤ b.vin → ∃ t, exec (.powerGood st) s = .next t ∧
      t.pending = s.pending ∧ t.sb.straps = st ∧ t.sb.phase = (if st.clkchk.val = 0 then .delayWait else .idle) ∧ t.sb.attempts = 0 ∧
      t.m.get strapStat = strapStatus st ∧ t.m.get rtDgen = (s.m.health.dgen + 1) % 256 ∧ t.m.health.entries = s.m.health.entries ∧
      t.m.fuses = s.m.fuses ∧ t.m.reg 0 = s.m.fuses.identity ∧ t.m.cells = [] ∧ t.m.strat = [] ∧ t.m.prompter = 0) ∧
    (b.attempts < 8 → b.straps.clkchk.val ≠ 0 →
      let next := { b with phase := .coarse, attempts := b.attempts + 1, trim := 128, keptBy := none, droppedBy := none }
      (b.phase = .idle → exec .clockCheckAttempt s = now next) ∧
      (b.phase.window = true → exec .clockCheckAttempt s = now { next with code := 1 }) ∧
      (b.phase = .pll → exec .clockCheckAttempt s = now { next with code := 2 })) ∧
    (b.phase = .idle → 8 ≤ b.attempts → exec .clockCheckAttempt s = now { b with phase := .dark }) ∧
    (b.phase.window = true → exec (.clockWindowVerdict none) s = failed 1 ∧ exec (.clockWindowVerdict (some 0)) s = failed 2) ∧
    (∀ n, 0 < n →
      (b.phase = .coarse → exec (.clockWindowVerdict (some n)) s =
        if 2400 ≤ n ∧ n ≤ 4000 then now { b with phase := .trim 8, trim := 128, keptBy := none, droppedBy := none } else failed 3) ∧
      let b1 := if 3200 < n then { b with droppedBy := some (n - 3200) } else { b with keptBy := some (3200 - n) }
      (∀ k, b.phase = .trim (k + 2) → exec (.clockWindowVerdict (some n)) s =
        now { b1 with phase := .trim (k + 1), trim := (if 3200 < n then b.trim - 2 ^ (k + 1) else b.trim) + 2 ^ (k + 1) / 2 }) ∧
      (b.phase = .trim 1 → let kept := if 3200 < n then b.trim - 1 else b.trim
        let c := match b1.keptBy, b1.droppedBy with
          | some k, some d => if d < k then Nat.min 255 (kept + 1) else kept
          | _, _ => kept
        exec (.clockWindowVerdict (some n)) s =
          if c = 0 ∨ c = 255 then now { b1 with phase := .idle, code := 4, trim := c } else now { b1 with phase := .fine, trim := c }) ∧
      (b.phase = .fine → exec (.clockWindowVerdict (some n)) s =
        if 3184 ≤ n ∧ n ≤ 3216 then now { b with phase := .pll, code := 0, trim0 := b.trim } else failed 5)) ∧
    (∀ counts, b.phase = .delayWait →
      exec (.delayModeWaitEnd false counts) s = now { b with phase := .dark, code := 6 } ∧
      ∃ t, exec (.delayModeWaitEnd true counts) s = .next t ∧ t.sb = { b with phase := .pll, code := 0, trim := trimSearch counts, trim0 := trimSearch counts } ∧
        (t.m.get ckTrimSat = 1 ↔ trimSearch counts = 0 ∨ trimSearch counts = 255)) ∧
    (b.phase = .pll → ∃ t, exec .managementPllLock s = .next t ∧ t.pending = s.pending ∧ t.sb.phase = .running ∧ t.m.prompter = 1 ∧
      t.m.nextImage = 1 ∧ t.m.get ckTrim = b.trim % 256 ∧ t.m.get ckCode = 0 ∧ t.m.get buStep = 1 ∧
      t.m.get ckAttempts = (if b.straps.clkchk.val = 0 then 0 else b.attempts % 16) ∧ t.m.get (miValid 0) = 1) ∧
    (36000 ≤ b.vin → exec .standbyReadCode s = .next { s with m := s.m.emit (.smbus b.code) } ∧
      exec .standbyReadAttempts s = .next { s with m := s.m.emit (.smbus b.attempts) }) ∧
    (b.phase = .dark → ∃ b', (exec .standbyRestart s =
        let m' := s.m.put strapStat (strapStatus b.straps)
        .next { s with sb := b', m := m' }) ∧ b'.straps = b.straps ∧ b'.attempts = 0 ∧
      b'.phase = (if b.straps.clkchk.val = 0 then .delayWait else .idle)) ∧
    (b.phase ≠ .dark → exec .standbyRestart s = .next s)

/-- Clocks in operation (R328 to R332, R334, Table 14-3): the monitor's windows trim the house oscillator or fail REFCLK, or, REFCLK failed, count
towards its return; what each lost clock stops; a field PLL's loss and the relock tries; the phases of a switch, whose held cycles CYCLE counts; a frequency measurement. -/
def Obligations.ClockSupervision : Prop :=
  ∀ (s : State),
    let b := s.sb
    let m := s.m
    let failedRef := fun (i : Instr) (code : Nat) => ∃ t, exec i s = .next t ∧ t.pending = s.pending ∧ t.sb.code = code ∧ t.m.ghost = true ∧
      t.m.get rtCause = 2 ∧ t.m.refclkOut = true ∧ ∀ hp, t.m.portLink hp = false
    (b.phase = .running →
      (m.refclkOut = true → ∀ n, let b' := { b with goods := if 3184 ≤ n ∧ n ≤ 3216 then b.goods + 1 else 0 }
        exec (.frequencyMonitorWindow n) s = .next { s with sb := b' }) ∧
      (m.ghost = false → m.refclkOut = false → ∀ n,
        (3191 ≤ n → n ≤ 3209 → let b' := { b with outs := 0, goods := b.goods + 1 }
          exec (.frequencyMonitorWindow n) s = .next { s with sb := b' }) ∧
        (3209 < n → n ≤ 3296 → b.trim0 ≤ b.trim + 7 → 0 < b.trim →
          let b' := { b with outs := 0, goods := if n ≤ 3216 then b.goods + 1 else 0, trim := b.trim - 1 }
          let m' := (m.put (ckEvent 5) 1).put ckTrim (b.trim - 1)
          exec (.frequencyMonitorWindow n) s = .next { s with sb := b', m := m' }) ∧
        (n < 3104 ∨ 3296 < n → 1 ≤ b.outs → failedRef (.frequencyMonitorWindow n) 0x11) ∧
        (3209 < n → n ≤ 3296 → b.trim + 7 < b.trim0 → failedRef (.frequencyMonitorWindow n) 0x11)) ∧
      (m.ghost = false → failedRef (.lossOfClock .refclk) 0x10 ∧
        ∃ t, exec (.lossOfClock .meshPll) s = .next t ∧ t.sb.code = 0x14 ∧ t.m.ghost = true ∧ t.m.get rtCause = 2 ∧
          t.m.refclkOut = m.refclkOut ∧ t.m.linkDown = m.linkDown) ∧
      (∀ k code, (k = .house ∧ code = 0x12) ∨ (k = .mgmtPll ∧ code = 0x13) → ∃ t, exec (.lossOfClock k) s = .next t ∧ t.pending = s.pending ∧
        t.sb.phase = .dark ∧ t.sb.code = code ∧ t.m.prompter = 0 ∧ (lastingCause (m.get rtCause) = false → t.m.ghost = false) ∧
        t.m.strat = m.strat ∧ t.m.cells = []) ∧
      (∀ f : Fin 72, m.present f = true → m.stratState f ≠ 0 → Makes (.lossOfClock (.stratPll f)) s (fun m' => m'.stratState f = 5)) ∧
      (∀ p : Fin 48, m.portFitted p = true → Makes (.lossOfClock (.serdesPll p)) s (fun m' => m'.get (portState p) = 5)) ∧
      (∀ hp : Fin 4, Makes (.lossOfClock (.pciePll hp)) s (fun m' => m'.linkDown = sadd m.linkDown hp))) ∧
    (∀ f : Fin 72, m.present f = true →
      let x := m.field f
      (m.fieldOn f = true → Makes (.fieldPllLoss f) s (fun m' => m'.get (fcLock f) = 0 ∧ m'.get (fsDomain f) = 0 ∧ (m'.field f).tries = 1 ∧
        ∀ c, m.coOf f = some c → m'.get (ctReady c) = 0)) ∧
      (0 < x.tries →
        Makes (.fieldPllRelockTry f true) s (fun m' => m'.get (fsDomain f) = 2 ∧ m'.get (fcLock f) = 1 ∧ (m'.field f).tries = 0) ∧
        (x.tries < 4 → Makes (.fieldPllRelockTry f false) s (fun m' => (m'.field f).tries = x.tries + 1 ∧ m'.regs = m.regs)) ∧
        (4 ≤ x.tries → Makes (.fieldPllRelockTry f false) s (fun m' => m'.get (fcFault f) = 1 ∧ (m'.field f).tries = 0))) ∧
      (m.fieldOn f = true → x.switching = 1 → m.get (fcSrc f) = 0 → x.freq ≠ 0 → Makes (.clockSwitch f) s (fun m' =>
        m'.get (fcSrc f) = 1 ∧ m'.get (fcFreq f) = 0x28 ∧ m'.get (fcLock f) = 0 ∧
          m'.field f = { x with cycle := x.cycle + 80, switching := 2 })) ∧
      (x.switching = 2 → Makes (.fieldPllLock f) s (fun m' => m'.get (fcLock f) = 1 ∧ m'.field f = { x with switching := 3 })) ∧
      (m.fieldOn f = true → x.switching = 3 → x.switches = [] → x.freq < 256 → Makes (.clockSwitch f) s (fun m' =>
        m'.get (fcSrc f) = 0 ∧ m'.get (fcFreq f) = x.freq ∧ m'.get (fcBusy f) = 0 ∧
          m'.get (fcSwitches f) = (m.get (fcSwitches f) + 1) % 256 ∧ m'.field f = { x with cycle := x.cycle + 80, switching := 0 }))) ∧
    (∀ v : Word32, m.prompterUp = true → v.getLsbD 31 = true → m.get frBusy = 0 → Makes (.freqMeasGo v) s (fun m' =>
      m'.get frBusy = 1 ∧ m'.get frValid = 0 ∧ m'.measSrc = m'.get fmSrc)) ∧
    (∀ edges, m.get frBusy = 1 → edges < 2 ^ 48 → Makes (.freqMeasDone edges) s (fun m' => m'.get frBusy = 0 ∧ m'.get frValid = 1 ∧
      m'.get frCount = (if m.measSrc ≤ 4 then edges else edges / 16) ∧ (m'.get frNoEdge = 1 ↔ edges = 0)))

/-- The pins (R324, R442 to R444, R451): reading the alert response releases ALERT_N; the TAP's instructions shift out what they capture,
EXTEST the pins while PWR_EN is low and as BYPASS otherwise. -/
def Obligations.PinsAndTap : Prop :=
  ∀ (s : State), 36000 ≤ s.sb.vin →
    (s.m.ghost = false → s.m.get rtRomLoop = 0 → Makes .alertResponse s (fun m' => m'.alert = false ∧ m'.regs = s.m.regs)) ∧
    (∃ t, exec .idcode s = .next t ∧ t.sb.ir = 1 ∧ t.m.out = s.m.out ++ [.tap 0x0A1709CD] ∧ t.m.regs = s.m.regs) ∧
    (∃ t, exec .bypass s = .next t ∧ t.sb.ir = 15 ∧ t.m.out = s.m.out ++ [.tap 0] ∧ t.m.regs = s.m.regs) ∧
    (∀ v : BitVec 12, let captured := (pinsOf s (Config.freeValue s.m.fresh)).toNat
      (∃ t, exec (.samplePreload v) s = .next t ∧ t.sb.ir = 2 ∧ t.sb.boundary = v.toNat ∧ t.m.out = s.m.out ++ [.tap captured]) ∧
      (s.sb.pwrEn = false → ∃ t, exec (.extest v) s = .next t ∧ t.sb.ir = 0 ∧ t.sb.boundary = v.toNat ∧ t.m.out = s.m.out ++ [.tap captured]) ∧
      (s.sb.pwrEn = true → ∃ t, exec (.extest v) s = .next t ∧ t.sb.ir = 15 ∧ t.sb.boundary = s.sb.boundary ∧ t.m.out = s.m.out ++ [.tap 0]) ∧
      ((pinsOf s (Config.freeValue s.m.fresh)).getLsbD 4 = s.sb.pwrEn))

/-! ### Power, temperature and energy (15), the input (21) -/

/-- Limits, waves and holds (R338 to R341, R343, R345, R346, R352): P_EFF falls by the excess over the fields that are on, rounded up, or rises by
2 W, never above a field's own limit; the hard limit holds every field at its most; a wave takes up to 9 fields, whose cells come up zero;
a control step's holds, by the registers as it finds them; the hard threshold and its end; a trip. -/
def Obligations.LimitsWavesAndHolds : Prop :=
  ∀ (s : State),
    let m := s.m
    let lim := m.get modLim
    let top := (m.onFields.map m.pLim).foldl Nat.min 390
    (powerTerm 3 48 411 390 60 = 7 ∧ thermTerm 6 386 60 = 11) ∧
    (m.prompterUp = true → ∀ w i o,
      (lim < w → m.onFields ≠ [] → Makes (.moduleLimiterStep ⟨w, i, o⟩) s (fun m' =>
        m'.pEff = Nat.min (m.pEff - ceilDiv (w - lim) m.onFields.length) top ∧ m'.get (pwEvent 0) = 1)) ∧
      (w + 500 < lim → Makes (.moduleLimiterStep ⟨w, i, o⟩) s (fun m' => m'.pEff = Nat.min (m.pEff + 2) top)) ∧
      (w ≤ lim → lim ≤ w + 500 → Makes (.moduleLimiterStep ⟨w, i, o⟩) s (fun m' => m'.pEff = Nat.min m.pEff top ∧
        m'.get psPower = Nat.min w 0xFFFF ∧ m'.get psInlet = Nat.min i 1023 ∧ m'.get psOutlet = Nat.min o 1023)) ∧
      (34000 < w → Makes (.hardLimit w) s (fun m' => m'.hardHold = true ∧ m'.get (pwEvent 1) = 1 ∧
        ∀ f ∈ m.onFields, m'.get (fsHolds f) = m.holdMax f)) ∧
      (w < 30000 → exec (.hardLimit w) s = .next { s with m := { m with hardHold := false } })) ∧
    (∀ on fs rest, m.wave = none → m.power = (on, fs) :: rest → Makes .powerWaveStart s (fun m' =>
      m'.wave = some (on, fs.take 9) ∧ m'.power = (if fs.drop 9 = [] then rest else (on, fs.drop 9) :: rest) ∧
      ∀ f ∈ fs.take 9,
        (on = true → m.keptDown = false → m.ghost = false → m.present f = true → m.get (fsDomain f) = 0 → m.get (fcFault f) = 0 → m'.get (fsDomain f) = 1) ∧
        (on = false → m.fieldOn f = true → m.wantsPower f = false → (m'.field f).drainCompute = true))) ∧
    (∀ fs f, f ∈ fs → f < 72 →
      (m.wave = some (true, fs) → m.get (fsDomain f) = 1 → Makes .powerWaveRampDone s (fun m' => m'.wave = none ∧ m'.get (fsDomain f) = 2 ∧
        (m'.field f).nP = 0 ∧ ∀ l, l < 384 → (m'.cell f l).mem = [] ∧ (m'.cell f l).sc.run = .stopped)) ∧
      (m.wave = some (false, fs) → m.get (fsDomain f) = 2 → (m.field f).drainCompute = true →
        Makes .powerWaveRampDone s (fun m' => m'.wave = none ∧ m'.get (fsDomain f) = 0 ∧ (m'.field f).drainCompute = false))) ∧
    (∀ f : Fin 72, m.present f = true →
      (∀ p t (n : Fin 5), m.fieldOn f = true → m.pEff ≤ 390 → (∀ g ∈ m.onFields, g ≠ f → m.pEff ≤ m.pLim g) →
        let most := m.get (fpHoldMax f)
        let nP := powerTerm (m.field f).nP (m.get (fpPGain f)) p (Nat.min (m.get (fpLim f)) m.pEff) most
        (2 ≤ n.val → m.hardHold = false → m.get (fsSensor f) = 0 → Makes (.controlStep f p t n) s (fun m' =>
          m'.get (fsHolds f) = Nat.max nP (thermTerm (m.get (fpTGain f)) t most) ∧ (m'.field f).nP = nP ∧
          (m'.get (fsSoft f) = 1 ↔ 380 ≤ t) ∧ (420 ≤ t → m'.get (fsHard f) = 1) ∧
          (420 ≤ t → m.get (fsHard f) = 0 → m'.get (fsOp f) = 0) ∧
          (t < 420 → m.get (fsHard f) = 0 → m'.get (fsOp f) = Nat.min (m.get (fsOpReq f)) (m.get (fpCeil f))))) ∧
        (n.val < 2 → m.get (fsSensor f) = 0 → Makes (.controlStep f p t n) s (fun m' => m'.get (fsSensor f) = 1 ∧
          m'.get (fsHolds f) = most ∧ m'.get (fsOp f) = 0))) ∧
      (m.get (fsHard f) = 1 → m.get (fsSensor f) = 0 → m.fieldOn f = true → Makes (.hardThresholdEnd f) s (fun m' =>
        m'.get (fsHard f) = 0 ∧ m'.get (fsOp f) = m.effective f)) ∧
      (m.fieldOn f = true → m.ghost = false → ∃ t, exec (.thermalTrip f) s = .next t ∧ t.pending = s.pending ∧ t.sb.thermtrip = true ∧
        t.m.get (fsDomain f) = 3 ∧ t.m.ghost = true ∧ t.m.get rtCause = 1) ∧
      (∀ avg natural cap, m.fieldOn f = true → m.vampFrac f ≠ 0 →
        let x := m.field f
        let fa := m.vampFrac f * avg / 100
        (x.floor ≤ fa → Makes (.vampStep f avg natural cap) s (fun m' => (m'.field f).floor = Nat.min cap fa ∧ (m'.field f).decay = false ∧
          m'.cells = m.cells ∧ m'.regs = m.regs)) ∧
        (fa < x.floor → Makes (.vampStep f avg natural cap) s (fun m' => (m'.field f).decay = true ∧
          (m'.field f).floor = Nat.min cap (Nat.max fa (x.floor - (if x.decay then x.anchor else x.floor) / m.vampRamp f)) ∧
          m'.cells = m.cells ∧ m'.regs = m.regs))))

/-- Energy and the input (R337, R347, R351, R404, R434, R435): microjoules are counted as whole millijoules with the remainder carried;
an input outside 46 to 60 V enters ghost light; PWR_EN; the voltage's events; the inlet. -/
def Obligations.EnergyAndInput : Prop :=
  ∀ (s : State),
    let m := s.m
    let b := s.sb
    (b.phase = .running → ∀ inp per,
      Makes (.energyUpdate inp per) s (fun m' => m'.get energyModule = (m.get energyModule + (m.remModule + inp) / 1000) % 2 ^ 64 ∧
        m'.remModule = (m.remModule + inp) % 1000 ∧
        ∀ co : Fin 16, m.isSet (cdEn co) = true →
          m'.get (energyCo co) = (m.get (energyCo co) + ((m.co co).remCo + m.energyOf per co) / 1000) % 2 ^ 64 ∧
          (m.hasJob co = true →
            m'.get (energyJob co) = (m.get (energyJob co) + ((m.co co).remJob + m.energyOf per co) / 1000) % 2 ^ 64))) ∧
    (b.phase = .running → b.vin < 46000 ∨ 60000 < b.vin → m.ghost = false →
      Makes .inputPowerFault s (fun m' => m'.ghost = true ∧ m'.get rtCause = 3)) ∧
    (b.pwrEn = false → let b' := { b with pwrEn := true, waitVin := decide (b.vin < 47000) }
      exec .pwrEnRise s = .next { s with sb := b' }) ∧
    (∃ t, exec .pwrEnFall s = .next t ∧ t.sb.pwrEn = false ∧ t.sb.phase = .off ∧ t.m.cells = [] ∧ t.m.strat = [] ∧ t.m.prompter = 0 ∧
      t.m.health = m.health ∧ t.m.fuses = m.fuses) ∧
    (∀ mv, (mv < 36000 → ∃ t, exec (.inputVoltageCrossing mv) s = .next t ∧ t.sb.vin = mv ∧ t.sb.phase = .off ∧ t.m.cells = []) ∧
      (36000 ≤ mv → b.phase ≠ .running → let b' := { b with vin := mv, waitVin := b.waitVin && decide (mv < 47000) }
        exec (.inputVoltageCrossing mv) s = .next { s with sb := b' }) ∧
      (36000 ≤ mv → b.phase = .running → ∃ t, exec (.inputVoltageCrossing mv) s = .next t ∧ t.sb.vin = mv ∧
        (mv < 48000 → t.m.get (pwEvent 5) = 1) ∧ (58000 < mv → t.m.get (pwEvent 6) = 1) ∧
        (48000 ≤ mv → mv ≤ 58000 → t.m = m.put psVin (mv / 20)))) ∧
    (∀ t, b.phase = .running → (t < 80 ∨ 140 < t → Makes (.inletOutOfRange t) s (fun m' => m'.get (pwEvent 7) = 1 ∧
      m'.get psInlet = Nat.min t 1023)))

/-! ### Resets and ghost light (18) -/

/-- Context, ring, engine and partition resets (R392 to R395, R400, R402): what each begins and what its end leaves; a generation held
within 34 ms makes the reset wait; an abandoned tag is free after its quarantine. -/
def Obligations.CompanyAndEngineResets : Prop :=
  ∀ (s : State) (co : Fin 16),
    let m := s.m
    let g := m.get (gsCgen co)
    (m.prompterUp = true → m.isSet (cdEn co) = true → m.ghost = false → (m.co co).reset = none → (m.co co).change = none → ∀ v : Word,
      (v.getLsbD 31 = true → v.getLsbD 30 = false → v.getLsbD 29 = false → m.hasJob co = true →
        Makes (.contextReset co .pf v) s (fun m' => StopsWith m' co 0x307 0 ∧ m'.coState co = m.coState co ∧
          (∀ p ∈ m.prodCells co, (m'.cell p.1 p.2).sc.run = .stopped ∧ (m'.cell p.1 p.2).fly.transfers = [] ∧
            (m'.cell p.1 p.2).vec.running = false ∧ (m'.cell p.1 p.2).rig.queues = []) ∧
          (shas (m.co co).gens ((g + 1) % 256) = false → m'.get (gsCgen co) = (g + 1) % 256) ∧
          (shas (m.co co).gens ((g + 1) % 256) = true → m'.get (gsCgen co) = g ∧ ∃ r, (m'.co co).reset = some r ∧ r.waitGen = true))) ∧
      (v.getLsbD 31 = true → v.getLsbD 30 = true → exec (.contextReset co .pf v) s = .next s ∧ exec (.partitionReset co .pf v) s = .next s) ∧
      (v.getLsbD 31 = true → v.getLsbD 30 = false → v.getLsbD 29 = true → let r := bits v 5 0
        let off := (m.ringOff co r).addWrap (gsResets co) 1
        ((m.ring co r).cur = none → exec (.ringContextReset co .pf v) s = .next { s with m := off }) ∧
        (∀ q b, (m.ring co r).cur = some q → q.bytes = some b →
          (cueOp b = 2 ∨ cueOp b = 4 → exec (.ringContextReset co .pf v) s = .next { s with m := off }) ∧
          (cueOp b = 7 → exec (.ringContextReset co .pf v) s = .next { s with m := off.finishCue co r 0x307 0 }) ∧
          (cueOp b = 3 → m.hasJob co = true → Makes (.ringContextReset co .pf v) s (fun m' => StopsWith m' co 0x307 0 ∧
            m'.get (cmdEn co r) = 0)))) ∧
      (v.getLsbD 31 = false → v.getLsbD 30 = true → Makes (.partitionReset co .pf v) s (fun m' => m'.get (gsBusy co) = 1 ∧
        (∃ r, (m'.co co).reset = some r ∧ r.level = 3 ∧ r.hadJob = m.hasJob co) ∧
        (∀ f ∈ m.coFields co, m.stratState f = 3 → m'.stratState f = 2) ∧
        (∀ k, k < 64 → (m'.ring co k).cues = [] ∧ (m'.ring co k).reads = [])))) ∧
    (∀ r, (m.co co).reset = some r → r.waitGen = false → (m.co co).change = none →
      (r.level = 1 → (m.co co).job.isSome = true → Makes (.resetComplete (.context co) true) s (fun m' => m'.get (gsBusy co) = 0 ∧
        (m'.co co).reset = none ∧ m'.coState co = 2 ∧ (m'.co co).job = none ∧ (m'.co co).prod = (m.co co).prod ∧ m'.strat = m.strat)) ∧
      (r.level = 3 → m.refilled co = true → Makes (.resetComplete (.partition co) true) s (fun m' => m'.get (gsBusy co) = 0 ∧
        (m'.co co).reset = none ∧ m'.coState co = 0 ∧ (m'.co co).prod = none ∧ m'.get (reloadNeeded co) = 0 ∧
        (∀ p ∈ m.coCells co, (m'.cell p.1 p.2).mem = []) ∧ (∀ l, l < 4096 → m'.reg (ledgerOff co l) = 0)))) ∧
    (∀ (f : Fin 72) (v : Word32), m.present f = true → m.pfAll = true →
      let u := bits (v.setWidth 64) 12 9
      let l := bits (v.setWidth 64) 8 0
      let e := (m.cell f l).egen u
      (7 < u ∧ u ≠ 9 ∨ 384 ≤ l → exec (.engineReset f v) s = .next s) ∧
      (u ≤ 7 ∨ u = 9 → v.getLsbD 31 = true → m.fieldOn f = true → m.get (erBusy f) = 0 → m.cellOk f l = true → m.coOf f = none →
        shas m.egens (egenKey f l u ((e + 1) % 4)) = false → Makes (.engineReset f v) s (fun m' => m'.get (erBusy f) = 1 ∧
          (m'.field f).eng = some (l, u, false) ∧ (m'.cell f l).egen u = (e + 1) % 4 ∧ (m'.cell f l).mem = (m.cell f l).mem))) ∧
    (∀ (f : Fin 72) l u, m.present f = true → (m.field f).eng = some (l, u, false) → (m.field f).engWait = [] → Makes (.resetComplete (.engine f) true) s (fun m' =>
      m'.get (erBusy f) = 0 ∧ (m'.field f).eng = none)) ∧
    (∀ v : BitVec 8, ∀ r, (m.co co).reset = some r → r.waitGen = true → co.val ∉ m.chipWaits → (m.co co).gens = [v.toNat] →
      (g + 1) % 256 = v.toNat → Makes (.generationWaitEnd (.company co) v) s (fun m' => m'.get (gsCgen co) = v.toNat ∧
        ∃ r', (m'.co co).reset = some r' ∧ r'.waitGen = false)) ∧
    (∀ (tag : BitVec 18) u, m.tag tag.toNat = some u → u.dead = true → m.tagWait = [] →
      Makes (.tagQuarantineEnd tag) s (fun m' => m'.tag tag.toNat = none)) ∧
    (∀ f : Fin 72, m.present f = true → (m.field f).drainCompute = true → Makes (.domainDrainCut (.compute f)) s (fun m' =>
      (m'.field f).drainCompute = false ∧ m'.get (fsDomain f) = 1 ∧ ∀ l, l < 384 → (m'.cell f l).inbound = []))

/-- Chip resets, ghost light, the watchdog and escalation (R396 to R398, R404 to R406): a chip reset begins and ends, in ghost light only as
its cause allows and, leaving it, once its power waves have ended; entry by command, whose fields drain in waves; the exit condition; the low
input; a reset past its limit, whose stuck engines are reset first; a watchdog that expires. -/
def Obligations.ChipResetsAndGhostLight : Prop :=
  ∀ (s : State),
    let m := s.m
    let c := m.get rtCause
    let d := m.get rtDgen
    (m.prompterUp = true → ∀ v : Word32, v.getLsbD 0 = true → v.getLsbD 1 = false →
      (m.get rtChipBusy = 1 → exec (.chipReset v) s = .next s) ∧
      (m.get rtChipBusy = 0 → m.ghost = false → Makes (.chipReset v) s (fun m' => m'.get rtChipBusy = 1 ∧ m'.get injEn = 0 ∧
        (∀ co : Fin 16, m'.coState co = 0 ∧ (m'.co co).job = none ∧ (m'.co co).prod = none) ∧ (∀ f l, (m'.cell f l).mem = []) ∧
        m'.routers = [] ∧ (shas m.dgens ((d + 1) % 256) = false → m'.get rtDgen = (d + 1) % 256 ∧ m'.health.dgen = (d + 1) % 256))) ∧
      (m.get rtChipBusy = 0 → m.ghost = true →
        (c = 1 ∨ c = 4 ∨ (c = 6 ∧ m.get buFailStep ≠ 7) → exec (.chipReset v) s = .next { s with m := m.put rtRefused 1 }) ∧
        (c = 2 ∨ c = 3 ∨ ((c = 5 ∨ (c = 6 ∧ m.get buFailStep = 7)) ∧ m.refclkOut = true) → m.exitHolds = false →
          exec (.chipReset v) s = .next { s with m := m.put rtExitWait 1 }) ∧
        (((c = 5 ∨ (c = 6 ∧ m.get buFailStep = 7)) ∧ m.refclkOut = false) ∨
            ((c = 2 ∨ c = 3 ∨ c = 5 ∨ (c = 6 ∧ m.get buFailStep = 7)) ∧ m.exitHolds = true) →
          Makes (.chipReset v) s (fun m' => m'.get rtChipBusy = 1 ∧ m'.ghost = true)))) ∧
    (m.prompterUp = true → m.get rtChipBusy = 1 → m.chipWaits = [] → (m.ghost = true → m.power = [] ∧ m.wave = none) →
      Makes .chipResetComplete s (fun m' => m'.get rtChipBusy = 0 ∧ m'.ghost = false ∧ m'.get rtChipResets = Nat.min 255 (m.get rtChipResets + 1) ∧
        (m.ghost = true → m'.get rtCause = 0))) ∧
    (m.get rtChipBusy = 1 → m.chipWaits ≠ [] ∨ (m.ghost = true ∧ (m.power ≠ [] ∨ m.wave ≠ none)) → exec .chipResetComplete s = .next s) ∧
    (m.prompterUp = true → m.ghost = false → ∀ v : Word32, v.getLsbD 1 = true → v.getLsbD 0 = false → Makes (.ghost v) s (fun m' =>
      m'.ghost = true ∧ m'.get rtCause = 5 ∧ m'.get dsGhost = 1 ∧ m'.alert = true ∧
        m'.power = [(false, allFields)] ∧ m'.wave = none ∧ (∀ f, f < 72 → m.fieldOn f = true → (m'.field f).drainCompute = true) ∧
        m'.routers = [] ∧ ∀ f l, (m'.cell f l).mem = [])) ∧
    (m.ghost = true → exitMet s.sb m = true → m.get rtExitWait = 0 →
      exec .ghostExitCondition s = .next { s with m := { m with exitHolds := true } }) ∧
    (m.ghost = true → exitMet s.sb m = true → m.get rtExitWait = 1 → Makes .ghostExitCondition s (fun m' => m'.get rtChipBusy = 1 ∧
      m'.get rtExitWait = 0)) ∧
    (m.ghost = true → s.sb.vin < 40000 → Makes .stratumLowInputOff s (fun m' => ∀ f, f < 72 → m'.stratState f = 0)) ∧
    (m.prompterUp = true → m.ghost = false → ∀ stuck,
      (m.get rtChipBusy = 1 → Makes (.resetEscalation ⟨.chip, stuck⟩) s (fun m' => m'.ghost = true ∧ m'.get rtCause = 4 ∧ m'.get rtChipBusy = 0)) ∧
      (∀ co : Fin 16, m.cuesWait co = true → m.get rtChipBusy = 0 →
        Makes (.resetEscalation ⟨.partition co, stuck⟩) s (fun m' => m'.get rtChipBusy = 1)) ∧
      (∀ f : Fin 72, ∀ co : Fin 16, m.get (erBusy f) = 1 → m.coOf f = some co.val → m.isSet (cdEn co) = true → m.cuesWait co = false →
        Makes (.resetEscalation ⟨.engine f, stuck⟩) s (fun m' => m'.get (erBusy f) = 0 ∧ m'.cuesWait co = true)) ∧
      (∀ (co : Fin 16) (k : CellRef) (u : Fin 10), (m.co co).reset.map (·.level) = some 1 → stuck = [(k, u)] → u.val ≠ 8 →
        m.isJobCell co k.field k.lcell = true → m.cellOk k.field k.lcell = true → m.get (erBusy k.field) = 0 →
        Makes (.resetEscalation ⟨.context co, stuck⟩) s (fun m' => m'.get (erBusy k.field) = 1))) ∧
    (m.prompterUp = true → s.sb.wdogAt = 0 ∨ s.sb.wdogAt + 60000000000 ≤ m.now → ∃ t, exec (.watchdogExpiry .missed) s = .next t ∧
      t.pending = s.pending ∧ t.sb.wdogAt = m.now + 1 ∧ t.m.prompter = 1 ∧ t.m.get rtBooting = 1 ∧ t.m.get rtPromResets = Nat.min 255 (m.get rtPromResets + 1) ∧
      t.m.cells = m.cells ∧ t.m.strat = m.strat) ∧
    (m.prompterUp = true → s.sb.wdogAt ≠ 0 → m.now < s.sb.wdogAt + 60000000000 → m.ghost = false → ∃ t,
      exec (.watchdogExpiry .missed) s = .next t ∧ t.m.ghost = true ∧ t.m.get rtCause = 4 ∧ t.m.get rtRomLoop = 1 ∧ t.m.prompter = 3) ∧
    (m.prompter = 1 → m.nextImage = 4 → m.get rtBooting = 1 → Makes .wdogKick s (fun m' => m'.prompter = 2 ∧ m'.get rtBooting = 0 ∧
      m'.get dsValid = 1))

/-! ### Bring-up (16), boot and attestation (19) -/

/-- Boot and bring-up (R354 to R363, R410 to R412): a signed image that is not too old is measured and handed over, else its backup copy,
else bring-up fails; what each step's end does, the last only once the power waves have ended; a step past its limit; the conditions of a quick
start, which takes no finding of the slow patterns; a bad cell moves the left-out column, or its row goes dark. -/
def Obligations.BootAndBringUp : Prop :=
  ∀ (s : State),
    let m := s.m
    let k := m.get buStep
    let nothing : Findings := ⟨[], [], [], [], [], [], [], [], []⟩
    (∀ im backup : BootImage,
      let j := m.nextImage
      let mayRun := fun (x : BootImage) => Config.sigOk x.bytes x.sig && decide (m.minSvn ≤ x.svn.toNat)
      let into := fun (x : BootImage) (b : Nat) => Makes (.bootImageLoad im backup) s (fun m' => m'.nextImage = j + 1 ∧
        m'.minSvn = Nat.max m.minSvn x.minSvn.toNat ∧ m'.measBytes j = sha384 (m.measBytes j ++ sha384 x.bytes) ∧
        m'.get (miValid j) = 1 ∧ m'.get (miBackup j) = b)
      let fails := Makes (.bootImageLoad im backup) s (fun m' =>
        m'.ghost = true ∧ m'.get rtCause = 6 ∧ m'.get buFailStep = 1 ∧ m'.prompter = 3 ∧ m'.get rtRomLoop = 1)
      m.prompter = 1 → 1 ≤ j → j ≤ 3 → m.ghost = false →
        (m.bootSrcOk = false → fails) ∧
        (m.bootSrcOk = true → if mayRun im then into im 0 else if mayRun backup then into backup 1 else fails)) ∧
    (m.prompter ≠ 1 → ∀ im backup, exec (.bootImageLoad im backup) s = .next s) ∧
    (m.prompter = 2 → k = 2 → ∀ p : Option Nat, Makes (.ptpWaitEnd p) s (fun m' => m'.ptp = p.map (fun t => t - m.now) ∧
      (m'.quick = true ↔ m.get quickEn = 1 ∧ m.health.forceFull = false ∧ m.health.uncorr = false ∧ m.health.added = false ∧
        m.health.fullOnly = false ∧ m.health.lastClean = true ∧ ∃ a t, p = some a ∧ m.health.fullAt = some t ∧ Nat.max a m.now < t + 604800000000000))) ∧
    (m.ghost = true → exec .bringupStepTimeout s = .next s ∧ ∀ fd, exec (.bringupStepComplete fd) s = .next s) ∧
    (m.quick = true → ∀ slow, exec (.bringupStepComplete { nothing with cellsSlow := slow }) s = exec (.bringupStepComplete nothing) s) ∧
    (m.ghost = false →
      (1 ≤ k → k ≤ 8 → Makes .bringupStepTimeout s (fun m' => m'.ghost = true ∧ m'.get rtCause = 6 ∧ m'.get buFailStep = k ∧
        m'.get buStep = 10)) ∧
      (k = 1 → m.prompter = 1 → m.nextImage = 4 → Makes (.bringupStepComplete nothing) s (fun m' => m'.get buStep = 2 ∧ m'.prompter = 2 ∧
        m'.get dsValid = 1 ∧ m'.measBytes 5 = sha384 m.cfgRecord)) ∧
      (k = 2 → Makes (.bringupStepComplete nothing) s (fun m' => m'.get buStep = 3 ∧ m'.get buQuick = ofBool m.quick ∧
        (m.health.entries = [] → m'.power = m.power ++ [(true, allFields)] ∧
          m'.measBytes 4 = sha384 (m.measBytes 4 ++ (List.range 48).map Config.fuseDigest)) ∧
        (∀ f row pcol, f < 72 → row < 16 → pcol < 24 → m.health.retest = false → m.health.entries = [.cell f row pcol] →
          m.get (rowDark f row) = 0 → m.get (rowL f row) = 24 → m.get (rowSpare f row) = 1 → m'.get (rowL f row) = pcol))) ∧
      (k = 3 → (m.power ≠ [] ∨ m.wave ≠ none → exec (.bringupStepComplete nothing) s = .next s) ∧
        (m.power = [] → m.wave = none → Makes (.bringupStepComplete nothing) s (fun m' => m'.get buStep = 4))) ∧
      (k = 4 →
        Makes (.bringupStepComplete nothing) s (fun m' => m'.get buStep = 5 ∧
          ∀ f, m.present f = true → m.stratState f = 0 → m'.stratState f = 1) ∧
        ∀ f row pcol, m.present f = true → row < 16 → pcol < 24 → m.health.entries.length < 1024 →
          (.cell f row pcol) ∉ m.health.entries → m.get (rowDark f row) = 0 →
          let fd : Findings := ⟨[(f, row, pcol)], [], [], [], [], [], [], [], []⟩
          (m.get (rowL f row) = 24 → m.get (rowSpare f row) = 1 → Makes (.bringupStepComplete fd) s (fun m' =>
            m'.get (rowL f row) = pcol ∧ m'.get (rowDark f row) = 0 ∧ m'.health.entries = m.health.entries ++ [.cell f row pcol])) ∧
          (m.get (rowL f row) < 24 → m.get (rowL f row) ≠ pcol → Makes (.bringupStepComplete fd) s (fun m' =>
            m'.get (rowDark f row) = 1 ∧ ∀ x, x < 9 → let g := f / 9 * 9 + x
              m'.get (rowDark g row) = 1 ∨ m'.get (rowShadow g row) = 1))) ∧
      (k = 5 → Makes (.bringupStepComplete nothing) s (fun m' => m'.get buStep = 6)) ∧
      (k = 6 → Makes (.bringupStepComplete nothing) s (fun m' => m'.get buStep = 7 ∧
        ∀ p, m.portFitted p = true → m.get (portEn p) = 1 → m.get (portState p) = 1 → m'.get (portState p) = 2)) ∧
      (k = 7 → Makes (.bringupStepComplete nothing) s (fun m' => m'.get buStep = 8 ∧
        (∀ p, m.portFitted p = true → m.get (portState p) = 2 → m'.get (portState p) = 1) ∧
        (∀ f, f < 72 → m.stratState f = 1 → shas m.stratLost f = true → m'.stratState f = 2) ∧
        let idle := m.onFields.filter (fun f => !m.wantsPower f)
        idle ≠ [] → m'.power = m.power ++ [(false, idle)])) ∧
      (k = 8 → m.power ≠ [] ∨ m.wave ≠ none → exec (.bringupStepComplete nothing) s = .next s) ∧
      (k = 8 → m.power = [] → m.wave = none → Makes (.bringupStepComplete nothing) s (fun m' => m'.get buStep = 9 ∧ m'.get dsDone = 1 ∧
        (∀ f, f < 72 → m.stratState f = 2 → m'.stratState f = 3) ∧
        (m.quick = true → m'.health.quicks = m.health.quicks + 1 ∧ m'.health.fullAt = m.health.fullAt) ∧
        (m.quick = false → m'.health.quicks = 0 ∧ m'.health.uncorr = false ∧ m'.health.added = false ∧
          m'.health.lastClean = m.clean ∧
          m'.health.fullAt = if m.clean then (if m.timeValid then some m.time else none) else m.health.fullAt))))

/-- Attestation (R413 to R417; the layouts and codes of the messages are the model's, log entry 20): the configuration record's register;
the order of the requests; what each response holds; signatures cover the transcript. -/
def Obligations.Attestation : Prop :=
  ∀ (s : State) (ep : SpdmEndpoint) (q : SpdmReq),
    let m := s.m
    let stage := (m.spdmOf ep).stage
    let sends := fun (i : Instr) (st : Nat) (b : List Byte) => Makes i s (fun m' => m'.out = m.out ++ [.spdm ep b] ∧ (m'.spdmOf ep).stage = st ∧
      m'.regs = m.regs)
    let error := fun (i : Instr) (code : BitVec 8) => sends i stage [0x12, 0x7F, code, 0]
    let others : List Instr := [.getCapabilities ep q, .negotiateAlgorithms ep q, .getDigests ep q, .getCertificate ep q,
      .getMeasurements ep q, .challenge ep q]
    (m.prompterUp = true → Makes .configRecordRecompute s (fun m' => m'.measBytes 5 = sha384 m.cfgRecord ∧ m'.get (miValid 5) = 1 ∧
      m'.cells = m.cells ∧ ∀ j, j < 7 → j ≠ 5 → m'.measBytes j = m.measBytes j)) ∧
    (m.answers ep = false → exec (.getVersion ep q) s = .next s ∧ ∀ i ∈ others, exec i s = .next s) ∧
    (m.answers ep = true →
      (q.version = 0x10 → sends (.getVersion ep q) 1 [0x10, 0x04, 0, 0, 0, 1, 0, 0x12]) ∧
      (q.version ≠ 0x10 → error (.getVersion ep q) 0x41) ∧
      (stage = 0 → ∀ i ∈ others, error i 0x43) ∧
      (stage ≠ 0 → q.version ≠ 0x12 → ∀ i ∈ others, error i 0x41) ∧
      (q.version = 0x12 →
        (stage = 1 → ∃ sizes, sizes.length = 8 ∧
          sends (.getCapabilities ep q) 2 ([0x12, 0x61, 0, 0, 0, 20, 0, 0, 0x16, 0, 0, 0] ++ sizes)) ∧
        (stage = 2 → error (.getCapabilities ep q) 0x04 ∧ (q.algOk = false → error (.negotiateAlgorithms ep q) 0x01) ∧
          (q.algOk = true → ∃ b, sends (.negotiateAlgorithms ep q) 3 ([0x12, 0x63, 0, 0] ++ b))) ∧
        (stage = 3 →
          sends (.getDigests ep q) 3 ([0x12, 0x01, 0, 1] ++ sha384 Config.certChain) ∧
          (q.param1 = 0 → ∃ b, sends (.getCertificate ep q) 3 ([0x12, 0x02, 0, 0] ++ b ++ Config.certChain)) ∧
          (q.param1 ≠ 0 → error (.getCertificate ep q) 0x01) ∧
          (q.param1.getLsbD 0 = false → ∀ j, j < 7 → j ≠ 6 → q.param2.toNat = j + 1 → ∃ nonce, nonce.length = 32 ∧
            sends (.getMeasurements ep q) 3 ([0x12, 0x60, 0, 0, 1, 55, 0, 0, BitVec.ofNat 8 (j + 1), 1, 51, 0,
              BitVec.ofNat 8 (measType j), 48, 0] ++ m.measBytes j ++ nonce ++ [0, 0])) ∧
          (q.param1.getLsbD 0 = true → q.param2.toNat ≤ 7 → ∃ b : List Byte,
            sends (.getMeasurements ep q) 3 (b ++ slice (Config.sign ((m.spdmOf ep).transcript ++ reqBytes 0xE0 q true ++ b)) 0 96)) ∧
          (7 < q.param2.toNat → q.param2 ≠ 0xFF → error (.getMeasurements ep q) 0x01) ∧
          (q.param1 = 0 → q.param2 = 0 → ∃ nonce, nonce.length = 32 ∧
            let b := ([0x12, 0x03, 0, 1] : List Byte) ++ sha384 Config.certChain ++ nonce ++ ([0, 0] : List Byte)
            sends (.challenge ep q) 3 (b ++ slice (Config.sign ((m.spdmOf ep).transcript ++ reqBytes 0x83 q true ++ b)) 0 96)))))

/-! ### Encores, rehearsals and dead cells (17) -/

/-- Encores (R374 to R378): each phase's end; equal digests commit as a false alarm, a step that the replay repeats cleanly is replaced by
it, any other is unresolved and stops the job; a replay past its limit, or a partner that does not fit, commits unverified; a company in MODE 3
serves a replay (what its copy brings are the command's operands: log entry 55). -/
def Obligations.Encores : Prop :=
  ∀ (s : State) (co : Fin 16), s.m.prompterUp = true →
    let m := s.m
    let e := (m.co co).enc
    let committed := fun (i : Instr) (outcome : Nat) (c : Fld) => Makes i s (fun m' => m'.get (esOutcome co) = outcome ∧
      m'.get (esStaging co) = 0 ∧ m'.get (esSuspect co) = 0 ∧ m'.get (esReplaying co) = 0 ∧ (m'.co co).enc = .zero ∧
      m'.get c = Nat.min (2 ^ (c.hi + 1 - c.lo) - 1) (m.get c + 1) ∧
      m'.get (jrSteps co) = Nat.min (2 ^ 32 - 1) (m.get (jrSteps co) + 1) ∧
      (e.atEnd = true → (m.co co).job.isSome = true → m'.coState co = 2 ∧ (m'.co co).job = none) ∧
      (e.atEnd = false → ∀ g, (m.co co).change = some g → g.stopAt = false → m.get (stopPending co) = 0 → m.wanted co = false →
        ∃ g', (m'.co co).change = some g' ∧ g'.phase = 3 ∧ g'.target = g.target))
    (e.phase = 1 → ∀ s0 o n data,
      Makes (.encoreCopyDone ⟨co, true, s0, o, n, data⟩) s (fun m' => (m'.co co).enc = { e with phase := 2 } ∧ m'.get (esReplaying co) = 1) ∧
      committed (.encoreCopyDone ⟨co, false, s0, o, n, data⟩) 4 (jrUnverified co)) ∧
    (∀ p (s0 : Fin 256) o n data, m.get (encMode co) = 3 → m.coState co = 2 → e.phase = 0 → (m.co co).prod = some p →
      s0.val < p.scenes.length → o + n ≤ p.slotBytes → Makes (.encoreCopyDone ⟨co, true, s0, o, n, data⟩) s (fun m' =>
        (m'.co co).enc.serving = true ∧ (m'.co co).enc.phase = 2 ∧ m'.get (scCurrent co) = s0 ∧ m'.coState co = 2 ∧
        ∀ q ∈ p.cells, (m'.cell q.1 q.2).sc.run = .running ∧ (m'.cell q.1 q.2).sc.pc = ((p.scenes[s0.val]?).map (·.2)).getD 0)) ∧
    (e.serving = true →
      let ended := fun (i : Instr) => Makes i s (fun m' => (m'.co co).enc = .zero ∧ ∀ q ∈ m.prodCells co, (m'.cell q.1 q.2).sc.run = .stopped)
      ended (.replayTimeout co) ∧ (e.phase = 2 → ∀ trips same d, ended (.encoreReplayEnd co trips same d))) ∧
    (e.phase = 2 → e.serving = false → ∀ trips same d, Makes (.encoreReplayEnd co trips same d) s (fun m' => m'.get (esReplaying co) = 0 ∧
      (m.get (encMode co) = 2 → (m'.co co).enc = { e with phase := 3, other := d, trips := trips, sameEnd := same }) ∧
      (m.get (encMode co) = 1 → ∀ a n, m.outRange co = some (a, n) →
        (m'.co co).enc.other = sha384 ((List.range (m.coFields co).length).flatMap (fun k => sha384 (readBytes m.strat (m.replayAt co k) n)))))) ∧
    (e.phase = 3 →
      (e.own = e.other → committed (.encoreDigestCompare co) 2 (jrFalseAlarm co)) ∧
      (e.own ≠ e.other → e.trips = 0 → e.sameEnd = true → Makes (.encoreDigestCompare co) s (fun m' =>
        (m'.co co).enc = { e with phase := 4 } ∧ m'.get (esStaging co) = m.get (esStaging co))) ∧
      (e.own ≠ e.other → e.trips ≠ 0 ∨ e.sameEnd = false → ∀ j p, m.coState co = 3 → (m.co co).reset = none → (m.co co).job = some j →
        j.tripped.head? = some p → m.get (esStaging co) = 1 → Makes (.encoreDigestCompare co) s (fun m' =>
          StopsWith m' co 0x302 (infoFault 0x20 p.1 p.2 pcOnes) ∧ m'.get (esOutcome co) = 5 ∧ m'.get (lastInterval co) = j.s0 % 256 ∧
            m'.get (intervalValid co) = 1))) ∧
    (e.phase = 4 → ∀ data,
      committed (.encoreCopyBackDone co data) 3 (jrMismatch co) ∧
      ∀ a n k, m.get (encMode co) ≠ 1 → m.outRange co = some (a, n) → a + n ≤ 2 ^ 35 → k < (m.coFields co).length →
        data.length = (m.coFields co).length * n → Makes (.encoreCopyBackDone co data) s (fun m' =>
          readBytes m'.strat (m.ownAt co k) n = slice data (k * n) n)) ∧
    (e.serving = false → e.phase = 1 ∨ e.phase = 2 ∨ e.phase = 3 → committed (.replayTimeout co) 4 (jrUnverified co)) ∧
    (e.phase = 0 → e.serving = false → (∀ fit s0 o n data, m.get (encMode co) ≠ 3 → exec (.encoreCopyDone ⟨co, fit, s0, o, n, data⟩) s = .next s) ∧ exec (.encoreDigestCompare co) s = .next s ∧ exec (.replayTimeout co) s = .next s ∧
      (∀ trips same d, exec (.encoreReplayEnd co trips same d) s = .next s) ∧ ∀ data, exec (.encoreCopyBackDone co data) s = .next s)

/-- Rehearsals, dead cells and error delivery (R380 to R384, R387): which cells a rehearsal covers and what its end clears; an overdue mark;
two failed probes in a row judge a cell dead; a dead cell calls its row's spare or darkens the row; a call's end; a record sent. -/
def Obligations.RehearsalsAndDeaths : Prop :=
  ∀ (s : State) (f : Fin 72),
    let m := s.m
    let marks := fun (i r : Nat) => i < 256 ∧ bits (m.reg (rhOff i)) 63 63 = 1 ∧ bits (m.reg (rhOff i)) 56 50 = f.val ∧
      bits (m.reg (rhOff i)) 49 41 / 24 = r
    (m.present f = true →
      (m.pfAll = true → (∃ i r, r < 16 ∧ m.rowOut f r = false ∧ marks i r) → (m.field f).rehearsing = [] → m.get (fcFault f) = 0 →
          m.get (fsHard f) = 0 → m.get (fsSensor f) = 0 →
        (m.fieldOn f = true → m.coOf f = none → Makes (.rehearsalStart f) s (fun m' => m'.get (fcBusy f) = 1 ∧ m'.get rhRunning = 1 ∧
          ∀ r p, (r, p) ∈ (m'.field f).rehearsing ↔ r < 16 ∧ p < 25 ∧ m.rowOut f r = false ∧ ∃ i, marks i r)) ∧
        (m.fieldOn f = true → ∀ c, m.coOf f = some c → m.coState c = 2 → Makes (.rehearsalStart f) s (fun m' =>
          m'.get (reloadNeeded c) = 1 ∧ (m'.field f).rehearsing ≠ [])) ∧
        (∀ c, m.coOf f = some c → m.coState c = 3 → exec (.rehearsalStart f) s = .next s) ∧
        (m.get (fsDomain f) = 0 → m.coOf f = none → Makes (.rehearsalStart f) s (fun m' => m'.power = m.power ++ [(true, [f.val])] ∧
          (m'.field f).rehearsing = []))) ∧
      ((m.field f).rehearsing ≠ [] → Makes (.rehearsalEnd f []) s (fun m' => (m'.field f).rehearsing = [] ∧
        (∀ i r, marks i r → (m.field f).rehearsing.any (fun p => decide (p.1 = r)) = true → m'.reg (rhOff i) = 0) ∧
        (∀ i, i < 256 → bits (m.reg (rhOff i)) 56 50 ≠ f.val → m'.reg (rhOff i) = m.reg (rhOff i)) ∧
        (m.fieldOn f = true → m.get (fsHard f) = 0 → m.get (fsSensor f) = 0 →
          m'.get (fsOp f) = m.effective f))) ∧
      ((m.field f).rehearsing = [] → exec (.rehearsalEnd f []) s = .next s)) ∧
    (∀ i : Fin 256, m.prompterUp = true → bits (m.reg (rhOff i)) 63 62 = 2 → Makes (.rehearsalOverdue i) s (fun m' =>
      bits (m'.reg (rhOff i)) 62 62 = 1 ∧ m'.get rhOverdue = Nat.min 65535 (m.get rhOverdue + 1) ∧
      ∀ c, m.coOf (bits (m.reg (rhOff i)) 56 50) = some c →
        m.isJobCell c (bits (m.reg (rhOff i)) 56 50) (bits (m.reg (rhOff i)) 49 41) = true →
          m'.get (jrFlagged c) = Nat.min 4095 (m.get (jrFlagged c) + 1))) ∧
    (m.present f = true → m.fieldOn f = true → ∀ (row : Fin 16) (pcol : Fin 25),
      let L := m.get (rowL f row)
      let l := row * 24 + if pcol.val < L then pcol.val else pcol.val - 1
      let ready := L = 24 ∧ m.get (rowSpare f row) = 1 ∧ m.health.entries.length < 1024 ∧ mget 0 m.calls (f * 16 + row) = 0
      (m.rowOut f row = true → exec (.cellDeath f row pcol) s = .next s) ∧
      (m.rowOut f row = false → pcol.val ≠ L →
        Makes (.cellDeath f row pcol) s (fun m' => m.health.entries.length < 1024 → m'.health.entries = m.health.entries ++ [.cell f row pcol]) ∧
        (ready → Makes (.cellDeath f row pcol) s (fun m' => mget 0 m'.calls (f * 16 + row) = pcol.val + 1 ∧ m'.get (rowL f row) = 24 ∧
          ∀ c, m.coOf f = some c → m.get (esReplaying c) = 0 → m.coState c = 3 → (m.co c).reset = none → m.isJobCell c f l = true →
            StopsWith m' c 0x302 (infoFault 0x21 f l pcOnes))) ∧
        (¬ready → Makes (.cellDeath f row pcol) s (fun m' => m'.get (rowDark f row) = 1 ∧ mget 0 m'.calls (f * 16 + row) = 0))) ∧
      (m.rowOut f row = false → L = 24 → pcol.val = 24 → Makes (.cellDeath f row pcol) s (fun m' => m'.get (rowSpare f row) = 0 ∧
        m'.get (rowL f row) = 24))) ∧
    (∀ (c : CellRef) (unit : Fin 13), m.fieldOn c.field = true → m.cellOk c.field c.lcell = true →
      let key := probeKey (m.place c.field c.lcell) unit;
      (let passed := { m with probeFails := sdel m.probeFails key };
        exec (.livenessProbe c unit true) s = .next { s with m := passed }) ∧
      (shas m.probeFails key = false → let once := { m with probeFails := sadd m.probeFails key };
        exec (.livenessProbe c unit false) s = .next { s with m := once }) ∧
      (shas m.probeFails key = true → ∀ (row : Fin 16) (pcol : Fin 25), row.val = c.lcell / 24 → pcol.val = m.pcol c.field row (c.lcell % 24) →
        let again := { m with probeFails := sdel m.probeFails key };
        exec (.livenessProbe c unit false) s = exec (.cellDeath c.field row pcol) { s with m := again })) ∧
    (m.present f = true → ∀ (row : Fin 16) (p : Fin 25), mget 0 m.calls (f * 16 + row) = p.val + 1 →
      Makes (.understudyCall f row true) s (fun m' => m'.get (rowL f row) = p.val ∧ mget 0 m'.calls (f * 16 + row) = 0 ∧
        (∀ x, x < 24 → (m'.cell f (row * 24 + x)).mem = [] ∧ (m'.cell f (row * 24 + x)).sc.run = .stopped) ∧
        ∀ c, m.coOf f = some c → (m.co c).prod.isSome = true → m'.get (reloadNeeded c) = 1) ∧
      Makes (.understudyCall f row false) s (fun m' => m'.get (rowDark f row) = 1 ∧ m'.get (rowSpare f row) = 0 ∧
        mget 0 m'.calls (f * 16 + row) = 0)) ∧
    (m.prompterUp = true →
      (m.unsent = [] → ∀ up, exec (.errorDatagram up) s = .next s) ∧
      ∀ q rest, m.unsent = q :: rest →
        (m.get errEn = 1 → Makes (.errorDatagram true) s (fun m' => m'.unsent = rest ∧ m'.regs = m.regs ∧
          m'.out = m.out ++ [.datagram m.errIp (m.get errPort) (m.ringBytes q)])) ∧
        (∀ up, up = false ∨ m.get errEn = 0 → Makes (.errorDatagram up) s (fun m' => m'.unsent = rest ∧ m'.out = m.out ∧
          m'.get errNotSent = Nat.min (2 ^ 32 - 1) (m.get errNotSent + 1))))

/-! ### Counters, notices, telemetry and traces (20) -/

/-- Counters (R419 to R431): what makes a selection refused; a snapshot latches the old selections and brings staged ones into force;
its completion; levels and notices; telemetry; trace control, at a field that is off from its power-up on, and frames. The datagrams' and stall
counters' free parts: log entries 2, 21; SIZE 0 with none held: log entry 41. -/
def Obligations.CountersAndTraces : Prop :=
  ∀ (s : State), s.m.prompterUp = true →
    let m := s.m
    (∀ (g k : Fin 16),
      (∀ v : Word,
        let kind := bits v 61 58
        let code := bits v 57 50
        let o := cselOff g k
        let exists_ := if v.getLsbD 62 then (kind, code) ∈ [(1, 0), (1, 1), (1, 2), (4, 0), (4, 1), (4, 2), (4, 3), (7, 0), (7, 1), (7, 2),
            (8, 0), (8, 1), (8, 2), (9, 0), (9, 1), (9, 2)]
          else ∃ n, (kind, n) ∈ [(1, 7), (2, 3), (3, 5), (4, 4), (5, 8), (6, 3), (7, 5), (8, 8), (9, 4), (10, 5), (11, 5)] ∧ 1 ≤ code ∧ code ≤ n
        let none_ := v.getLsbD 63 = false ∧ bits v 62 50 = 0
        (¬exists_ → ¬none_ → Makes (.cntSelWrite g k v) s (fun m' => m'.get (snLost g) = 1 ∧ m'.reg o = m.reg o)) ∧
        (none_ ∨ (exists_ ∧ (v.getLsbD 63 = false ∨ v.getLsbD 62 = false)) → Makes (.cntSelWrite g k v) s (fun m' => m'.get (snPending g) = 1 ∧
          bits (m'.reg o) 63 50 = bits v 63 50 ∧ bits (m'.reg o) 48 23 = bits v 48 23 ∧ m'.sels = m.sels))) ∧
      (∀ v : Word32,
        (v.getLsbD 31 = true → m.get (snBusy g) = 1 → Makes (.snapshotGo g v) s (fun m' => m'.get (snLost g) = 1 ∧ m'.snaps = m.snaps ∧
          m'.sels = m.sels)) ∧
        (v.getLsbD 31 = true → m.get (snBusy g) = 0 → Makes (.snapshotGo g v) s (fun m' => m'.get (snBusy g) = 1 ∧ m'.get (snPending g) = 0 ∧
          (∀ i, i < 16 → mget 0 m'.sels (g * 16 + i) = m.reg (cselOff g i)) ∧
          ∃ x, mget none m'.snaps g = some x ∧ x.time = m.time ∧ (x.applied = true ↔ m.get (snPending g) = 1) ∧
            ∀ i, i < 16 → let w := mget 0 m.sels (g * 16 + i)
              (w.getLsbD 63 = false ∨ m.selAbsent w = true → x.vals[i]? = some 0) ∧
              (w.getLsbD 63 = true → w.getLsbD 62 = false → m.selAbsent w = false → untracked w = false →
                x.vals[i]? = some (mget 0 m.ctr (selKey w)))))) ∧
      (∀ x, mget none m.snaps g = some x → x.restart < 2 ^ 16 → x.absent < 2 ^ 16 → Makes (.snapshotComplete g) s (fun m' => m'.get (snBusy g) = 0 ∧ mget none m'.snaps g = none ∧
        m'.reg (hdrOff g) = BitVec.ofNat 64 x.time ∧ bits (m'.reg (hdrOff g + 8)) 63 48 = (bits (m.reg (hdrOff g + 8)) 63 48 + 1) % 65536 ∧
        ∀ i, i < 16 → m'.reg (hdrOff g + 0x10 + 8 * i) = (x.vals[i]?).getD 0)) ∧
      (mget none m.snaps g = none → exec (.snapshotComplete g) s = .next s)) ∧
    (∀ (n : Fin 64) (v : Word),
      let o := wmOff n
      let level := (bits v 61 58, bits v 57 50) ∈ [(1, 1), (7, 1), (9, 1), (4, 1), (4, 2), (8, 1), (8, 2), (11, 1), (11, 2)]
      let bad := (m.reg (o + 0x18)).getLsbD 63 = true ∨ bits v 19 0 = 0 ∨ ¬level
      (bad → Makes (.wmSelWrite n v) s (fun m' => m'.get wmLost = 1 ∧ m'.reg o = m.reg o)) ∧
      (¬bad → Makes (.wmSelWrite n v) s (fun m' => bits (m'.reg o) 63 63 = bits v 63 63 ∧ bits (m'.reg o) 61 50 = bits v 61 50 ∧
        bits (m'.reg o) 48 23 = bits v 48 23 ∧ bits (m'.reg o) 19 0 = bits v 19 0))) ∧
    (∀ (f : Fin 72) (ch : Fin 16), m.noticeLevel (.hot f ch) = some ((m.chan f ch).queue.length, m.get stHotMark)) ∧
    (∀ (n : NoticeRef) level mark, m.noticeLevel n = some (level, mark) → mark < 2 ^ 20 →
      let r := noticeRegs n
      let seen := fun (m' : Mod) => m'.reg r.1 = BitVec.ofNat 64 m.time ∧ bits (m'.reg r.2) 63 63 = 1 ∧ bits (m'.reg r.2) 51 32 = mark ∧
        bits (m'.reg r.2) 19 0 = Nat.min level 0xFFFFF ∧ bits (m'.reg r.2) 62 62 = ofBool m.timeValid
      ((m.reg r.2).getLsbD 63 = false → mark ≤ level → Makes (.watermarkCrossing n) s seen) ∧
      ((m.reg r.2).getLsbD 63 = false → level < mark → exec (.watermarkCrossing n) s = .next s) ∧
      ((m.reg r.2).getLsbD 63 = true → Makes (.watermarkCrossing n) s (fun m' => m'.reg r.1 = m.reg r.1 ∧
        bits (m'.reg r.2) 19 0 = Nat.max (bits (m.reg r.2) 19 0) (Nat.min level 0xFFFFF) ∧ bits (m'.reg r.2) 63 32 = bits (m.reg r.2) 63 32)) ∧
      (∀ v : Word, v.getLsbD 63 = true →
        (level < mark → Makes (.watermarkClear n v) s (fun m' => m'.reg r.1 = 0 ∧ m'.reg r.2 = 0)) ∧
        (mark ≤ level → Makes (.watermarkClear n v) s seen)) ∧
      (∀ v : Word, v.getLsbD 63 = false → exec (.watermarkClear n v) s = .next s)) ∧
    (m.get telEn = 0 → ∀ up, exec (.telemetryPeriod up) s = .next s) ∧
    (m.ghost = false → m.get telEn = 1 → ∀ g : Fin 16, m.get telGroups = 2 ^ g.val →
      Makes (.telemetryPeriod true) s (fun m' => m'.get telSent = (m.get telSent + 1) % 2 ^ 32 ∧ m'.get (snBusy g) = 0 ∧
        ∃ b, b.length = 160 ∧ m'.out = m.out ++ [.datagram m.errIp (m.get telPort) b]) ∧
      Makes (.telemetryPeriod false) s (fun m' => m'.get telNotSent = Nat.min (2 ^ 32 - 1) (m.get telNotSent + 1) ∧ m'.out = m.out)) ∧
    (∀ f : Fin 72, m.present f = true →
      let x := m.field f
      let o := fieldBase f + 0x490
      (m.ghost = false → m.fieldOn f = false → ∀ v : Word, let late := m.late ++ [(o, v)]
        exec (.traceCtrlWrite f v) s = .next { s with m := { m with late := late } }) ∧
      (m.ghost = false → m.fieldOn f = true → ∀ v : Word,
        (v.getLsbD 63 = true → bits v 23 12 ≠ 0 ∨ m.get (tcSize f) = 0 → m.traceFits f v = false → Makes (.traceCtrlWrite f v) s (fun m' => m'.get (tsLost f) = 1 ∧ m'.reg o = m.reg o)) ∧
        (v.getLsbD 63 = true → m.traceFits f v = true → m.get (tcEn f) = 0 → Makes (.traceCtrlWrite f v) s (fun m' =>
          m'.get (tsActive f) = 1 ∧ m'.get (tsLines f) = 0 ∧ m'.get (tsDropped f) = 0 ∧ m'.get (tsFull f) = 0 ∧ m'.get (tcEn f) = 1 ∧
          m'.get (tcOff f) = bits v 47 24 ∧ m'.get (tcSize f) = bits v 23 12 ∧ (m'.field f).frames = 0)) ∧
        (v.getLsbD 63 = false → Makes (.traceCtrlWrite f v) s (fun m' => m'.get (tsActive f) = 0 ∧ m'.get (tcEn f) = 0))) ∧
      (m.get (tcEn f) = 0 ∨ m.get (tsFull f) = 1 ∨ m.fieldOn f = false → exec (.traceFrame f) s = .next s) ∧
      (m.get (tcEn f) = 1 → m.get (tsFull f) = 0 → m.fieldOn f = true →
        (m.stratReady f = false → Makes (.traceFrame f) s (fun m' => m'.get (tsDropped f) = Nat.min 65535 (m.get (tsDropped f) + 1) ∧
          (m'.field f).frames = x.frames + 1 ∧ (m'.field f).dropped = x.dropped + 1 ∧ m'.strat = m.strat)) ∧
        (m.stratReady f = true → m.get (tcSections f) = 2 → m.get (tcStop f) = 0 → Makes (.traceFrame f) s (fun m' =>
          (m'.field f).lines = x.lines + 49 ∧ m'.get (tsLines f) = (x.lines + 49) % 2 ^ 32 ∧ (m'.field f).frames = x.frames + 1 ∧
          (m'.field f).dropped = 0))))

/-! ### The whole machine -/

/-- The state after reset (R434, R445, R454; what no rule states is the model's, log entry 5): nothing waits, nothing is powered, memories,
rings and companies are empty, and the registers hold the values of their tables. -/
def Obligations.ResetState : Prop :=
  let s := State.reset
  let m := s.m
  s.pending = [] ∧ s.sb.pwrEn = false ∧ s.sb.phase = .off ∧ StandbyInv s.sb ∧ m.cells = [] ∧ m.strat = [] ∧ m.prompter = 0 ∧
    m.ghost = false ∧ m.out = [] ∧
    (∀ o d, regAt o = some d → m.reg o = BitVec.ofNat 64 (fieldsReset d.fields)) ∧
    (∀ co : Fin 16, m.coState co = 0 ∧ m.get (cdEn co) = 0 ∧ m.get (gsCgen co) = 0 ∧ m.get (feMask co) = 0x1F ∧ m.get (scStrikeUs co) = 0x10 ∧
      m.get (scAckMs co) = 0x10 ∧ ∀ r : Fin 64, m.get (cmdEn co r) = 0 ∧ m.get (cmdSize co r) = 6 ∧ m.get (cplEn co r) = 0) ∧
    (∀ f : Fin 72, m.get (fpLim f) = 390 ∧ m.get (fpHoldMax f) = 56 ∧ m.get (fpPGain f) = 48 ∧ m.get (fpTGain f) = 6 ∧ m.get (fpCeil f) = 7 ∧
      m.get (fsDomain f) = 0 ∧ m.coOf f = none ∧ m.stratState f = 0) ∧
    (∀ p : Fin 48, m.get (portState p) = 1 ∧ m.get (portEn p) = 1) ∧
    m.get modLim = 30000 ∧ m.get injEn = 0 ∧ m.get stScrubEn = 1 ∧ m.get stHotMark = 96 ∧ m.get quickEn = 1

/-- The standby logic stays within its bounds: attempts, trim, code and TAP registers keep their ranges, the trim stays within 8 steps of
its start-up value while the device runs, and nothing runs without an input and PWR_EN, whatever command or tick comes. -/
def Obligations.StandbyInvariant : Prop := ∀ s t : State, StandbyInv s.sb → step s = .next t → StandbyInv t.sb

/-- Every command has a meaning: it answers a next state, with the queue as it was; one at a field or an optical port that the part does not
have changes nothing (R1). -/
def Obligations.EveryCommandIsAnswered : Prop :=
  (∀ (i : Instr) (s : State), ∃ t, exec i s = .next t ∧ t.pending = s.pending) ∧
  (∀ (s : State) (f : Fin 72), s.m.present f = false → ∀ p t (n : Fin 5) avg natural cap,
    ∀ i ∈ [Instr.fieldPllLoss f, .fieldPllRelockTry f true, .clockSwitch f, .fieldPllLock f, .controlStep f p t n, .hardThresholdEnd f,
      .thermalTrip f, .vampStep f avg natural cap, .rehearsalStart f, .rehearsalEnd f [], .traceFrame f], exec i s = .next s) ∧
  (∀ (s : State) (p : Fin 48), s.m.portFitted p = false → ∀ fr sq lane (v : Word32) ok bad load,
    ∀ i ∈ [Instr.linkFrameReceive p fr, .linkRetry p sq, .laneLoss p lane, .lossOfSignal p, .portRetrain p, .portEnWrite p v,
      .portTrainingDone p ⟨ok, bad⟩, .shedinPacketArrival p, .adaptiveLoadReport p load], exec i s = .next s)
end

