-- ==== Sys2Proof/Laws/Bits.lean ====
section
/-! SUPPORT. Laws of bit fields and of little-endian bytes: a field reads as it was written, the others as before. -/

namespace Sys2Proof.Machine

theorem testBit_bits {n : Nat} (w : BitVec n) (hi lo i : Nat) :
    (bits w hi lo).testBit i = (decide (i < hi + 1 - lo) && w.getLsbD (lo + i)) := by
  simp only [bits, Nat.testBit_mod_two_pow, Nat.testBit_shiftRight, BitVec.testBit_toNat]

theorem getLsbD_setBits {n : Nat} (w : BitVec n) (hi lo v i : Nat) (h : lo ≤ hi) :
    (setBits w hi lo v).getLsbD i =
      if lo ≤ i ∧ i ≤ hi then decide (i < n) && v.testBit (i - lo) else w.getLsbD i := by
  have hm : (2 ^ (hi + 1 - lo) - 1).testBit (i - lo) = decide (i - lo < hi + 1 - lo) := Nat.testBit_two_pow_sub_one ..
  simp only [setBits, fieldMask, BitVec.getLsbD_or, BitVec.getLsbD_and, BitVec.getLsbD_not, BitVec.getLsbD_shiftLeft,
    BitVec.getLsbD_ofNat, hm, Nat.testBit_mod_two_pow]
  by_cases hn : i < n
  · by_cases h1 : lo ≤ i ∧ i ≤ hi
    · rw [if_pos h1]
      have h2 : ¬ i < lo := by omega
      have h3 : i - lo < hi + 1 - lo := by omega
      have h4 : i - lo < n := by omega
      simp [hn, h2, h3, h4]
    · rw [if_neg h1]
      by_cases h2 : i < lo
      · simp [hn, h2]
      · have h3 : ¬ i - lo < hi + 1 - lo := by omega
        simp [hn, h2, h3]
  · have := w.getLsbD_of_ge i (by omega)
    simp [hn, this]

/-- A field reads as the low bits of what was written to it. -/
theorem bits_setBits_same {n : Nat} (w : BitVec n) (hi lo v : Nat) (h : lo ≤ hi) (hn : hi < n) :
    bits (setBits w hi lo v) hi lo = v % 2 ^ (hi + 1 - lo) := by
  apply Nat.eq_of_testBit_eq
  intro i
  rw [testBit_bits, getLsbD_setBits w hi lo v _ h, Nat.testBit_mod_two_pow]
  by_cases hi' : i < hi + 1 - lo
  · rw [if_pos ⟨by omega, by omega⟩, show lo + i - lo = i by omega]
    have : lo + i < n := by omega
    simp [hi', this]
  · simp [hi']

/-- A field that shares no bit with the one written reads as before. -/
theorem bits_setBits_ne {n : Nat} (w : BitVec n) {hi lo hi' lo' : Nat} (v : Nat) (h : lo ≤ hi) (hd : hi' < lo ∨ hi < lo') :
    bits (setBits w hi lo v) hi' lo' = bits w hi' lo' := by
  apply Nat.eq_of_testBit_eq
  intro i
  rw [testBit_bits, testBit_bits, getLsbD_setBits w hi lo v _ h]
  by_cases hi2 : i < hi' + 1 - lo'
  · rw [if_neg (by omega)]
  · simp [hi2]

theorem bits_lt {n : Nat} (w : BitVec n) (hi lo : Nat) : bits w hi lo < 2 ^ (hi + 1 - lo) :=
  Nat.mod_lt _ (Nat.two_pow_pos _)

@[simp] theorem toLe_length (v n : Nat) : (toLe v n).length = n := by
  induction n generalizing v with
  | zero => rfl
  | succ n ih => simp [toLe, ih]

/-- The number that little-endian bytes spell. -/
theorem ofLe_toLe (v n : Nat) : ofLe (toLe v n) = v % 256 ^ n := by
  induction n generalizing v with
  | zero => simp [toLe, ofLe, Nat.mod_one]
  | succ n ih =>
    simp only [toLe, ofLe, ih, BitVec.toNat_ofNat]
    rw [show (256 : Nat) ^ (n + 1) = 256 * 256 ^ n by ring, Nat.mod_mul]

end Sys2Proof.Machine
end

