-- ==== Sys2Proof/Laws/Map.lean ====
section
/-! SUPPORT. Laws of sparse maps and of memory: a read after a write, reads elsewhere, and the canonical form kept by every
operation. -/

namespace Sys2Proof.Machine

section
variable {α : Type}

theorem merase_keys (m : SMap α) (k : Nat) : ∀ e ∈ merase m k, e.1 ≠ k := by
  induction m with
  | nil => simp [merase]
  | cons e m ih =>
    obtain ⟨j, v⟩ := e
    simp only [merase]
    split
    · exact ih
    · intro e he
      rcases List.mem_cons.1 he with rfl | he
      · assumption
      · exact ih e he

theorem mem_of_mem_merase (m : SMap α) (k : Nat) : ∀ e ∈ merase m k, e ∈ m := by
  induction m with
  | nil => simp [merase]
  | cons e m ih =>
    obtain ⟨j, v⟩ := e
    simp only [merase]
    split
    · intro e he; exact List.mem_cons_of_mem _ (ih e he)
    · intro e he
      rcases List.mem_cons.1 he with rfl | he
      · exact List.mem_cons_self ..
      · exact List.mem_cons_of_mem _ (ih e he)

theorem mget_of_absent (d : α) (m : SMap α) (k : Nat) (h : ∀ e ∈ m, e.1 ≠ k) : mget d m k = d := by
  induction m with
  | nil => rfl
  | cons e m ih =>
    obtain ⟨j, v⟩ := e
    have hj : j ≠ k := h (j, v) (List.mem_cons_self ..)
    simp only [mget, if_neg hj]
    exact ih fun e he => h e (List.mem_cons_of_mem _ he)

@[simp] theorem mget_merase_same (d : α) (m : SMap α) (k : Nat) : mget d (merase m k) k = d :=
  mget_of_absent d _ k (merase_keys m k)

theorem mget_merase_ne (d : α) (m : SMap α) {k a : Nat} (h : a ≠ k) : mget d (merase m k) a = mget d m a := by
  induction m with
  | nil => rfl
  | cons e m ih =>
    obtain ⟨j, v⟩ := e
    simp only [merase]
    split
    · rename_i hj; subst hj; simp only [mget, if_neg (Ne.symm h)]; exact ih
    · simp only [mget]; split <;> [rfl; exact ih]

theorem mget_mins_same (d : α) (m : SMap α) (k : Nat) (v : α) (h : ∀ e ∈ m, e.1 ≠ k) : mget d (mins m k v) k = v := by
  induction m with
  | nil => simp [mins, mget]
  | cons e m ih =>
    obtain ⟨j, w⟩ := e
    have hj : j ≠ k := h (j, w) (List.mem_cons_self ..)
    simp only [mins]
    split
    · simp [mget]
    · simp only [mget, if_neg hj]; exact ih fun e he => h e (List.mem_cons_of_mem _ he)

theorem mget_mins_ne (d : α) (m : SMap α) {k a : Nat} (v : α) (h : a ≠ k) : mget d (mins m k v) a = mget d m a := by
  induction m with
  | nil => simp [mins, mget, Ne.symm h]
  | cons e m ih =>
    obtain ⟨j, w⟩ := e
    simp only [mins]
    split
    · simp [mget, Ne.symm h]
    · simp only [mget]; split <;> [rfl; exact ih]

@[simp] theorem mget_mset_same [DecidableEq α] (d : α) (m : SMap α) (k : Nat) (v : α) : mget d (mset d m k v) k = v := by
  unfold mset
  split
  · rename_i hv; rw [mget_merase_same, hv]
  · exact mget_mins_same d _ k v (merase_keys m k)

theorem mget_mset_ne [DecidableEq α] (e d : α) (m : SMap α) {k a : Nat} (v : α) (h : a ≠ k) :
    mget e (mset d m k v) a = mget e m a := by
  unfold mset
  split
  · exact mget_merase_ne e m h
  · rw [mget_mins_ne e _ v h, mget_merase_ne e m h]

/-! The canonical form. -/

theorem risingFrom_weaken {i j : Nat} (hij : i ≤ j) (m : SMap α) (h : risingFrom (some j) m = true) :
    risingFrom (some i) m = true := by
  cases m with
  | nil => rfl
  | cons e m =>
    obtain ⟨k, v⟩ := e
    simp only [risingFrom, Bool.and_eq_true, decide_eq_true_eq] at h ⊢
    exact ⟨by omega, h.2⟩

theorem risingFrom_none {i : Nat} (m : SMap α) (h : risingFrom (some i) m = true) : risingFrom none m = true := by
  cases m with
  | nil => rfl
  | cons e m => obtain ⟨k, v⟩ := e; simp only [risingFrom, Bool.and_eq_true] at h ⊢; exact h.2

theorem risingFrom_merase (o : Option Nat) (m : SMap α) (k : Nat) (h : risingFrom o m = true) :
    risingFrom o (merase m k) = true := by
  induction m generalizing o with
  | nil => cases o <;> rfl
  | cons e m ih =>
    obtain ⟨j, v⟩ := e
    cases o with
    | none =>
      simp only [risingFrom] at h
      simp only [merase]
      split
      · exact risingFrom_none _ (ih (some j) h)
      · simp only [risingFrom]; exact ih _ h
    | some i =>
      simp only [risingFrom, Bool.and_eq_true, decide_eq_true_eq] at h
      simp only [merase]
      split
      · exact risingFrom_weaken (Nat.le_of_lt h.1) _ (ih (some j) h.2)
      · simp only [risingFrom, Bool.and_eq_true, decide_eq_true_eq]; exact ⟨h.1, ih _ h.2⟩

theorem risingFrom_mins_some {i k : Nat} (hik : i < k) (m : SMap α) (v : α) (hk : ∀ e ∈ m, e.1 ≠ k)
    (h : risingFrom (some i) m = true) : risingFrom (some i) (mins m k v) = true := by
  induction m generalizing i with
  | nil => simp [mins, risingFrom, hik]
  | cons e m ih =>
    obtain ⟨j, w⟩ := e
    have hj : j ≠ k := hk (j, w) (List.mem_cons_self ..)
    simp only [risingFrom, Bool.and_eq_true, decide_eq_true_eq] at h
    simp only [mins]
    split
    · rename_i hkj; simp only [risingFrom, Bool.and_eq_true, decide_eq_true_eq]; exact ⟨hik, hkj, h.2⟩
    · simp only [risingFrom, Bool.and_eq_true, decide_eq_true_eq]
      exact ⟨h.1, ih (by omega) (fun e he => hk e (List.mem_cons_of_mem _ he)) h.2⟩

theorem risingFrom_mins_none (k : Nat) (m : SMap α) (v : α) (hk : ∀ e ∈ m, e.1 ≠ k)
    (h : risingFrom none m = true) : risingFrom none (mins m k v) = true := by
  cases m with
  | nil => rfl
  | cons e m =>
    obtain ⟨j, w⟩ := e
    have hj : j ≠ k := hk (j, w) (List.mem_cons_self ..)
    simp only [risingFrom] at h
    simp only [mins]
    split
    · rename_i hkj; simp only [risingFrom, Bool.and_eq_true, decide_eq_true_eq]; exact ⟨hkj, h⟩
    · simp only [risingFrom]
      exact risingFrom_mins_some (by omega) m v (fun e he => hk e (List.mem_cons_of_mem _ he)) h

theorem mem_mins (m : SMap α) (k : Nat) (v : α) : ∀ e ∈ mins m k v, e = (k, v) ∨ e ∈ m := by
  induction m with
  | nil => simp [mins]
  | cons e m ih =>
    obtain ⟨j, w⟩ := e
    simp only [mins]
    split
    · intro e he; rcases List.mem_cons.1 he with h | h <;> [exact .inl h; exact .inr h]
    · intro e he
      rcases List.mem_cons.1 he with h | h
      · exact .inr (h ▸ List.mem_cons_self ..)
      · rcases ih e h with h | h
        · exact .inl h
        · exact .inr (List.mem_cons_of_mem _ h)

variable [DecidableEq α]

theorem mwf_nil (d : α) : mwf d [] = true := rfl

theorem mwf_merase (d : α) (m : SMap α) (k : Nat) (h : mwf d m = true) : mwf d (merase m k) = true := by
  simp only [mwf, Bool.and_eq_true, List.all_eq_true] at h ⊢
  exact ⟨risingFrom_merase none m k h.1, fun e he => h.2 e (mem_of_mem_merase m k e he)⟩

/-- A write keeps the canonical form. -/
theorem mwf_mset (d : α) (m : SMap α) (k : Nat) (v : α) (h : mwf d m = true) : mwf d (mset d m k v) = true := by
  unfold mset
  split
  · exact mwf_merase d m k h
  · rename_i hv
    have he := mwf_merase d m k h
    simp only [mwf, Bool.and_eq_true, List.all_eq_true, decide_eq_true_eq] at he ⊢
    refine ⟨risingFrom_mins_none k _ v (merase_keys m k) he.1, fun e hm => ?_⟩
    rcases mem_mins _ k v e hm with rfl | hm
    · exact hv
    · exact he.2 e hm

omit [DecidableEq α] in
theorem risingFrom_filter (o : Option Nat) (m : SMap α) (p : Nat × α → Bool) (h : risingFrom o m = true) :
    risingFrom o (m.filter p) = true := by
  induction m generalizing o with
  | nil => cases o <;> rfl
  | cons e m ih =>
    obtain ⟨j, v⟩ := e
    cases o with
    | none =>
      simp only [risingFrom] at h
      simp only [List.filter_cons]
      split
      · simp only [risingFrom]; exact ih _ h
      · exact risingFrom_none _ (ih (some j) h)
    | some i =>
      simp only [risingFrom, Bool.and_eq_true, decide_eq_true_eq] at h
      simp only [List.filter_cons]
      split
      · simp only [risingFrom, Bool.and_eq_true, decide_eq_true_eq]; exact ⟨h.1, ih _ h.2⟩
      · exact risingFrom_weaken (Nat.le_of_lt h.1) _ (ih (some j) h.2)

theorem mwf_filter (d : α) (m : SMap α) (p : Nat × α → Bool) (h : mwf d m = true) : mwf d (m.filter p) = true := by
  simp only [mwf, Bool.and_eq_true, List.all_eq_true] at h ⊢
  exact ⟨risingFrom_filter none m p h.1, fun e he => h.2 e (List.mem_filter.1 he).1⟩

end

section
variable {α : Type}

theorem merase_of_absent (m : SMap α) (k : Nat) (h : ∀ e ∈ m, e.1 ≠ k) : merase m k = m := by
  induction m with
  | nil => rfl
  | cons e m ih =>
    obtain ⟨j, v⟩ := e
    have hj : j ≠ k := h (j, v) (List.mem_cons_self ..)
    simp only [merase, if_neg hj]
    rw [ih fun e he => h e (List.mem_cons_of_mem _ he)]

theorem merase_mins_same (m : SMap α) (k : Nat) (v : α) (h : ∀ e ∈ m, e.1 ≠ k) : merase (mins m k v) k = m := by
  induction m with
  | nil => simp [mins, merase]
  | cons e m ih =>
    obtain ⟨j, w⟩ := e
    have hj : j ≠ k := h (j, w) (List.mem_cons_self ..)
    have hm := fun e he => h e (List.mem_cons_of_mem _ he)
    simp only [mins]
    split
    · simp only [merase, if_neg hj, if_true, merase_of_absent m k hm]
    · simp only [merase, if_neg hj]
      rw [ih hm]

/-- Of two writes of one key the second counts, whatever form the map has. -/
@[simp] theorem mset_mset_same [DecidableEq α] (d : α) (m : SMap α) (k : Nat) (v w : α) :
    mset d (mset d m k v) k w = mset d m k w := by
  have h : merase (mset d m k v) k = merase m k := by
    unfold mset
    split
    · exact merase_of_absent _ k (merase_keys m k)
    · exact merase_mins_same _ k v (merase_keys m k)
  simp only [mset.eq_1 d (mset d m k v) k w, h]
  rfl

end

/-! Memory. -/

@[simp] theorem readByte_writeByte_same (m : Memory) (a : Nat) (b : Byte) : readByte (writeByte m a b) a = b :=
  mget_mset_same 0 m a b

theorem readByte_writeByte_ne (m : Memory) {a x : Nat} (b : Byte) (h : x ≠ a) : readByte (writeByte m a b) x = readByte m x :=
  mget_mset_ne 0 0 m b h

theorem readByte_writeBytes (m : Memory) (a x : Nat) (bs : List Byte) :
    readByte (writeBytes m a bs) x = if a ≤ x ∧ x < a + bs.length then (bs[x - a]?).getD 0 else readByte m x := by
  induction bs generalizing m a with
  | nil => simp [writeBytes]
  | cons b bs ih =>
    simp only [writeBytes, ih, List.length_cons]
    by_cases hx : x = a
    · subst hx; simp
    · by_cases h : a + 1 ≤ x ∧ x < a + 1 + bs.length
      · rw [if_pos h, if_pos (by omega)]
        obtain ⟨k, rfl⟩ : ∃ k, x = a + 1 + k := ⟨x - (a + 1), by omega⟩
        rw [show a + 1 + k - (a + 1) = k by omega, show a + 1 + k - a = k + 1 by omega]; simp
      · rw [if_neg h, if_neg (by omega), readByte_writeByte_ne m b hx]

theorem readByte_zeroBytes (m : Memory) (a n x : Nat) :
    readByte (zeroBytes m a n) x = if a ≤ x ∧ x < a + n then 0 else readByte m x := by
  unfold zeroBytes readByte
  induction m with
  | nil => simp [mget]
  | cons e m ih =>
    obtain ⟨j, v⟩ := e
    simp only [List.filter_cons]
    split
    · rename_i hj
      simp only [decide_eq_true_eq] at hj
      simp only [mget, ih]
      split
      · rename_i hjx; subst hjx; rw [if_neg (by omega)]
      · rfl
    · rename_i hj
      simp only [decide_eq_true_eq] at hj
      simp only [mget, ih]
      split
      · rfl
      · rw [if_neg (by omega)]

/-- Every memory operation keeps the canonical form. -/
theorem Memory.wf_writeByte (m : Memory) (a : Nat) (b : Byte) (h : Memory.wf m = true) : Memory.wf (writeByte m a b) = true :=
  mwf_mset 0 m a b h

theorem Memory.wf_writeBytes (m : Memory) (a : Nat) (bs : List Byte) (h : Memory.wf m = true) :
    Memory.wf (writeBytes m a bs) = true := by
  induction bs generalizing m a with
  | nil => exact h
  | cons b bs ih => exact ih _ _ (Memory.wf_writeByte m a b h)

theorem Memory.wf_zeroBytes (m : Memory) (a n : Nat) (h : Memory.wf m = true) : Memory.wf (zeroBytes m a n) = true :=
  mwf_filter 0 m _ h

end Sys2Proof.Machine
end

