-- ==== Sys2Proof/Laws/State.lean ====
section
/-! SUPPORT. What each named update of the module leaves as it was, a lemma for each field and each accessor, and what it
writes. -/

namespace Sys2Proof.Machine

/-! What an update writes. -/

theorem Mod.reg_setReg_same (m : Mod) (o : Nat) (v : Word) : (m.setReg o v).reg o = v := by
  exact mget_mset_same (α := Word) (resetVal o) m.regs o v

theorem Mod.reg_setReg_ne (m : Mod) {o p : Nat} (v : Word) (h : p ≠ o) : (m.setReg o v).reg p = m.reg p := by
  exact mget_mset_ne (α := Word) (resetVal p) (resetVal o) m.regs v h

/-- A field reads as the low bits of what was put into it. -/
theorem Mod.get_put_same (m : Mod) (f : Fld) (v : Nat) (h : f.lo ≤ f.hi) (h' : f.hi < 64) :
    (m.put f v).get f = v % 2 ^ (f.hi + 1 - f.lo) := by
  unfold Mod.get Mod.put
  rw [Mod.reg_setReg_same]
  exact bits_setBits_same _ _ _ _ h h'

/-- Another field of the same register reads as before. -/
theorem Mod.get_put_bits (m : Mod) (f g : Fld) (v : Nat) (h : f.lo ≤ f.hi) (hd : g.hi < f.lo ∨ f.hi < g.lo) :
    (m.put f v).get g = m.get g := by
  unfold Mod.get Mod.put
  by_cases ho : g.off = f.off
  · rw [ho, Mod.reg_setReg_same]; exact bits_setBits_ne _ _ h hd
  · rw [Mod.reg_setReg_ne _ _ ho]

/-- A field of another register reads as before. -/
theorem Mod.get_put_off (m : Mod) (f g : Fld) (v : Nat) (ho : g.off ≠ f.off) : (m.put f v).get g = m.get g := by
  unfold Mod.get Mod.put
  rw [Mod.reg_setReg_ne _ _ ho]

theorem Mod.reg_put_off (m : Mod) (f : Fld) (o v : Nat) (ho : o ≠ f.off) : (m.put f v).reg o = m.reg o :=
  Mod.reg_setReg_ne _ _ ho

theorem Mod.field_setField_same (m : Mod) (f : Nat) (x : Field) : (m.setField f x).field f = x := mget_mset_same _ _ _ _

theorem Mod.field_setField_ne (m : Mod) {f g : Nat} (x : Field) (h : g ≠ f) : (m.setField f x).field g = m.field g :=
  mget_mset_ne _ _ _ _ h

theorem Mod.co_setCo_same (m : Mod) (c : Nat) (x : Company) : (m.setCo c x).co c = x := mget_mset_same _ _ _ _

theorem Mod.co_setCo_ne (m : Mod) {c d : Nat} (x : Company) (h : d ≠ c) : (m.setCo c x).co d = m.co d :=
  mget_mset_ne _ _ _ _ h

theorem Mod.cell_setCell_same (m : Mod) (f l : Nat) (x : Cell) : (m.setCell f l x).cell f l = x := mget_mset_same _ _ _ _

/-- A cell at another place is as before. -/
theorem Mod.cell_setCell_ne (m : Mod) {f l g k : Nat} (x : Cell) (h : m.place g k ≠ m.place f l) :
    (m.setCell f l x).cell g k = m.cell g k := mget_mset_ne _ _ _ _ h

/-! What it leaves. -/

@[simp] theorem Mod.setReg_cells (m : Mod) (o : Nat) (v : Word) : (m.setReg o v).cells = m.cells := rfl
@[simp] theorem Mod.setReg_fields (m : Mod) (o : Nat) (v : Word) : (m.setReg o v).fields = m.fields := rfl
@[simp] theorem Mod.setReg_strat (m : Mod) (o : Nat) (v : Word) : (m.setReg o v).strat = m.strat := rfl
@[simp] theorem Mod.setReg_stratBad (m : Mod) (o : Nat) (v : Word) : (m.setReg o v).stratBad = m.stratBad := rfl
@[simp] theorem Mod.setReg_stratLatent (m : Mod) (o : Nat) (v : Word) : (m.setReg o v).stratLatent = m.stratLatent := rfl
@[simp] theorem Mod.setReg_stratLost (m : Mod) (o : Nat) (v : Word) : (m.setReg o v).stratLost = m.stratLost := rfl
@[simp] theorem Mod.setReg_stratOpen (m : Mod) (o : Nat) (v : Word) : (m.setReg o v).stratOpen = m.stratOpen := rfl
@[simp] theorem Mod.setReg_stratKnown (m : Mod) (o : Nat) (v : Word) : (m.setReg o v).stratKnown = m.stratKnown := rfl
@[simp] theorem Mod.setReg_chans (m : Mod) (o : Nat) (v : Word) : (m.setReg o v).chans = m.chans := rfl
@[simp] theorem Mod.setReg_routers (m : Mod) (o : Nat) (v : Word) : (m.setReg o v).routers = m.routers := rfl
@[simp] theorem Mod.setReg_slots (m : Mod) (o : Nat) (v : Word) : (m.setReg o v).slots = m.slots := rfl
@[simp] theorem Mod.setReg_served (m : Mod) (o : Nat) (v : Word) : (m.setReg o v).served = m.served := rfl
@[simp] theorem Mod.setReg_ports (m : Mod) (o : Nat) (v : Word) : (m.setReg o v).ports = m.ports := rfl
@[simp] theorem Mod.setReg_flows (m : Mod) (o : Nat) (v : Word) : (m.setReg o v).flows = m.flows := rfl
@[simp] theorem Mod.setReg_peers (m : Mod) (o : Nat) (v : Word) : (m.setReg o v).peers = m.peers := rfl
@[simp] theorem Mod.setReg_tags (m : Mod) (o : Nat) (v : Word) : (m.setReg o v).tags = m.tags := rfl
@[simp] theorem Mod.setReg_tagWait (m : Mod) (o : Nat) (v : Word) : (m.setReg o v).tagWait = m.tagWait := rfl
@[simp] theorem Mod.setReg_toHost (m : Mod) (o : Nat) (v : Word) : (m.setReg o v).toHost = m.toHost := rfl
@[simp] theorem Mod.setReg_ledAdds (m : Mod) (o : Nat) (v : Word) : (m.setReg o v).ledAdds = m.ledAdds := rfl
@[simp] theorem Mod.setReg_rounds (m : Mod) (o : Nat) (v : Word) : (m.setReg o v).rounds = m.rounds := rfl
@[simp] theorem Mod.setReg_closed (m : Mod) (o : Nat) (v : Word) : (m.setReg o v).closed = m.closed := rfl
@[simp] theorem Mod.setReg_bounces (m : Mod) (o : Nat) (v : Word) : (m.setReg o v).bounces = m.bounces := rfl
@[simp] theorem Mod.setReg_quiet (m : Mod) (o : Nat) (v : Word) : (m.setReg o v).quiet = m.quiet := rfl
@[simp] theorem Mod.setReg_linked (m : Mod) (o : Nat) (v : Word) : (m.setReg o v).linked = m.linked := rfl
@[simp] theorem Mod.setReg_cos (m : Mod) (o : Nat) (v : Word) : (m.setReg o v).cos = m.cos := rfl
@[simp] theorem Mod.setReg_plans (m : Mod) (o : Nat) (v : Word) : (m.setReg o v).plans = m.plans := rfl
@[simp] theorem Mod.setReg_health (m : Mod) (o : Nat) (v : Word) : (m.setReg o v).health = m.health := rfl
@[simp] theorem Mod.setReg_power (m : Mod) (o : Nat) (v : Word) : (m.setReg o v).power = m.power := rfl
@[simp] theorem Mod.setReg_wave (m : Mod) (o : Nat) (v : Word) : (m.setReg o v).wave = m.wave := rfl
@[simp] theorem Mod.setReg_pEff (m : Mod) (o : Nat) (v : Word) : (m.setReg o v).pEff = m.pEff := rfl
@[simp] theorem Mod.setReg_hardHold (m : Mod) (o : Nat) (v : Word) : (m.setReg o v).hardHold = m.hardHold := rfl
@[simp] theorem Mod.setReg_snaps (m : Mod) (o : Nat) (v : Word) : (m.setReg o v).snaps = m.snaps := rfl
@[simp] theorem Mod.setReg_sels (m : Mod) (o : Nat) (v : Word) : (m.setReg o v).sels = m.sels := rfl
@[simp] theorem Mod.setReg_upsSeen (m : Mod) (o : Nat) (v : Word) : (m.setReg o v).upsSeen = m.upsSeen := rfl
@[simp] theorem Mod.setReg_merges (m : Mod) (o : Nat) (v : Word) : (m.setReg o v).merges = m.merges := rfl
@[simp] theorem Mod.setReg_unsent (m : Mod) (o : Nat) (v : Word) : (m.setReg o v).unsent = m.unsent := rfl
@[simp] theorem Mod.setReg_spdm (m : Mod) (o : Nat) (v : Word) : (m.setReg o v).spdm = m.spdm := rfl
@[simp] theorem Mod.setReg_minSvn (m : Mod) (o : Nat) (v : Word) : (m.setReg o v).minSvn = m.minSvn := rfl
@[simp] theorem Mod.setReg_numVfs (m : Mod) (o : Nat) (v : Word) : (m.setReg o v).numVfs = m.numVfs := rfl
@[simp] theorem Mod.setReg_msixAddr (m : Mod) (o : Nat) (v : Word) : (m.setReg o v).msixAddr = m.msixAddr := rfl
@[simp] theorem Mod.setReg_msixCtl (m : Mod) (o : Nat) (v : Word) : (m.setReg o v).msixCtl = m.msixCtl := rfl
@[simp] theorem Mod.setReg_msixPend (m : Mod) (o : Nat) (v : Word) : (m.setReg o v).msixPend = m.msixPend := rfl
@[simp] theorem Mod.setReg_prompter (m : Mod) (o : Nat) (v : Word) : (m.setReg o v).prompter = m.prompter := rfl
@[simp] theorem Mod.setReg_nextImage (m : Mod) (o : Nat) (v : Word) : (m.setReg o v).nextImage = m.nextImage := rfl
@[simp] theorem Mod.setReg_quick (m : Mod) (o : Nat) (v : Word) : (m.setReg o v).quick = m.quick := rfl
@[simp] theorem Mod.setReg_clean (m : Mod) (o : Nat) (v : Word) : (m.setReg o v).clean = m.clean := rfl
@[simp] theorem Mod.setReg_dgens (m : Mod) (o : Nat) (v : Word) : (m.setReg o v).dgens = m.dgens := rfl
@[simp] theorem Mod.setReg_egens (m : Mod) (o : Nat) (v : Word) : (m.setReg o v).egens = m.egens := rfl
@[simp] theorem Mod.setReg_chipWaits (m : Mod) (o : Nat) (v : Word) : (m.setReg o v).chipWaits = m.chipWaits := rfl
@[simp] theorem Mod.setReg_chipHeld (m : Mod) (o : Nat) (v : Word) : (m.setReg o v).chipHeld = m.chipHeld := rfl
@[simp] theorem Mod.setReg_exitHolds (m : Mod) (o : Nat) (v : Word) : (m.setReg o v).exitHolds = m.exitHolds := rfl
@[simp] theorem Mod.setReg_calls (m : Mod) (o : Nat) (v : Word) : (m.setReg o v).calls = m.calls := rfl
@[simp] theorem Mod.setReg_probeFails (m : Mod) (o : Nat) (v : Word) : (m.setReg o v).probeFails = m.probeFails := rfl
@[simp] theorem Mod.setReg_hostOut (m : Mod) (o : Nat) (v : Word) : (m.setReg o v).hostOut = m.hostOut := rfl
@[simp] theorem Mod.setReg_linkDown (m : Mod) (o : Nat) (v : Word) : (m.setReg o v).linkDown = m.linkDown := rfl
@[simp] theorem Mod.setReg_edgeUps (m : Mod) (o : Nat) (v : Word) : (m.setReg o v).edgeUps = m.edgeUps := rfl
@[simp] theorem Mod.setReg_remModule (m : Mod) (o : Nat) (v : Word) : (m.setReg o v).remModule = m.remModule := rfl
@[simp] theorem Mod.setReg_remShared (m : Mod) (o : Nat) (v : Word) : (m.setReg o v).remShared = m.remShared := rfl
@[simp] theorem Mod.setReg_ctr (m : Mod) (o : Nat) (v : Word) : (m.setReg o v).ctr = m.ctr := rfl
@[simp] theorem Mod.setReg_out (m : Mod) (o : Nat) (v : Word) : (m.setReg o v).out = m.out := rfl
@[simp] theorem Mod.setReg_fresh (m : Mod) (o : Nat) (v : Word) : (m.setReg o v).fresh = m.fresh := rfl
@[simp] theorem Mod.setReg_now (m : Mod) (o : Nat) (v : Word) : (m.setReg o v).now = m.now := rfl
@[simp] theorem Mod.setReg_ptp (m : Mod) (o : Nat) (v : Word) : (m.setReg o v).ptp = m.ptp := rfl
@[simp] theorem Mod.setReg_alert (m : Mod) (o : Nat) (v : Word) : (m.setReg o v).alert = m.alert := rfl
@[simp] theorem Mod.setReg_perstLow (m : Mod) (o : Nat) (v : Word) : (m.setReg o v).perstLow = m.perstLow := rfl
@[simp] theorem Mod.setReg_late (m : Mod) (o : Nat) (v : Word) : (m.setReg o v).late = m.late := rfl
@[simp] theorem Mod.setReg_fuses (m : Mod) (o : Nat) (v : Word) : (m.setReg o v).fuses = m.fuses := rfl
@[simp] theorem Mod.setReg_numSet (m : Mod) (o : Nat) (v : Word) : (m.setReg o v).numSet = m.numSet := rfl
@[simp] theorem Mod.setReg_refclkOut (m : Mod) (o : Nat) (v : Word) : (m.setReg o v).refclkOut = m.refclkOut := rfl
@[simp] theorem Mod.setReg_measSrc (m : Mod) (o : Nat) (v : Word) : (m.setReg o v).measSrc = m.measSrc := rfl
@[simp] theorem Mod.setReg_chipAged (m : Mod) (o : Nat) (v : Word) : (m.setReg o v).chipAged = m.chipAged := rfl
@[simp] theorem Mod.setReg_hostArb (m : Mod) (o : Nat) (v : Word) : (m.setReg o v).hostArb = m.hostArb := rfl
@[simp] theorem Mod.setReg_retired (m : Mod) (o : Nat) (v : Word) : (m.setReg o v).retired = m.retired := rfl
@[simp] theorem Mod.put_cells (m : Mod) (f : Fld) (v : Nat) : (m.put f v).cells = m.cells := rfl
@[simp] theorem Mod.put_fields (m : Mod) (f : Fld) (v : Nat) : (m.put f v).fields = m.fields := rfl
@[simp] theorem Mod.put_strat (m : Mod) (f : Fld) (v : Nat) : (m.put f v).strat = m.strat := rfl
@[simp] theorem Mod.put_stratBad (m : Mod) (f : Fld) (v : Nat) : (m.put f v).stratBad = m.stratBad := rfl
@[simp] theorem Mod.put_stratLatent (m : Mod) (f : Fld) (v : Nat) : (m.put f v).stratLatent = m.stratLatent := rfl
@[simp] theorem Mod.put_stratLost (m : Mod) (f : Fld) (v : Nat) : (m.put f v).stratLost = m.stratLost := rfl
@[simp] theorem Mod.put_stratOpen (m : Mod) (f : Fld) (v : Nat) : (m.put f v).stratOpen = m.stratOpen := rfl
@[simp] theorem Mod.put_stratKnown (m : Mod) (f : Fld) (v : Nat) : (m.put f v).stratKnown = m.stratKnown := rfl
@[simp] theorem Mod.put_chans (m : Mod) (f : Fld) (v : Nat) : (m.put f v).chans = m.chans := rfl
@[simp] theorem Mod.put_routers (m : Mod) (f : Fld) (v : Nat) : (m.put f v).routers = m.routers := rfl
@[simp] theorem Mod.put_slots (m : Mod) (f : Fld) (v : Nat) : (m.put f v).slots = m.slots := rfl
@[simp] theorem Mod.put_served (m : Mod) (f : Fld) (v : Nat) : (m.put f v).served = m.served := rfl
@[simp] theorem Mod.put_ports (m : Mod) (f : Fld) (v : Nat) : (m.put f v).ports = m.ports := rfl
@[simp] theorem Mod.put_flows (m : Mod) (f : Fld) (v : Nat) : (m.put f v).flows = m.flows := rfl
@[simp] theorem Mod.put_peers (m : Mod) (f : Fld) (v : Nat) : (m.put f v).peers = m.peers := rfl
@[simp] theorem Mod.put_tags (m : Mod) (f : Fld) (v : Nat) : (m.put f v).tags = m.tags := rfl
@[simp] theorem Mod.put_tagWait (m : Mod) (f : Fld) (v : Nat) : (m.put f v).tagWait = m.tagWait := rfl
@[simp] theorem Mod.put_toHost (m : Mod) (f : Fld) (v : Nat) : (m.put f v).toHost = m.toHost := rfl
@[simp] theorem Mod.put_ledAdds (m : Mod) (f : Fld) (v : Nat) : (m.put f v).ledAdds = m.ledAdds := rfl
@[simp] theorem Mod.put_rounds (m : Mod) (f : Fld) (v : Nat) : (m.put f v).rounds = m.rounds := rfl
@[simp] theorem Mod.put_closed (m : Mod) (f : Fld) (v : Nat) : (m.put f v).closed = m.closed := rfl
@[simp] theorem Mod.put_bounces (m : Mod) (f : Fld) (v : Nat) : (m.put f v).bounces = m.bounces := rfl
@[simp] theorem Mod.put_quiet (m : Mod) (f : Fld) (v : Nat) : (m.put f v).quiet = m.quiet := rfl
@[simp] theorem Mod.put_linked (m : Mod) (f : Fld) (v : Nat) : (m.put f v).linked = m.linked := rfl
@[simp] theorem Mod.put_cos (m : Mod) (f : Fld) (v : Nat) : (m.put f v).cos = m.cos := rfl
@[simp] theorem Mod.put_plans (m : Mod) (f : Fld) (v : Nat) : (m.put f v).plans = m.plans := rfl
@[simp] theorem Mod.put_health (m : Mod) (f : Fld) (v : Nat) : (m.put f v).health = m.health := rfl
@[simp] theorem Mod.put_power (m : Mod) (f : Fld) (v : Nat) : (m.put f v).power = m.power := rfl
@[simp] theorem Mod.put_wave (m : Mod) (f : Fld) (v : Nat) : (m.put f v).wave = m.wave := rfl
@[simp] theorem Mod.put_pEff (m : Mod) (f : Fld) (v : Nat) : (m.put f v).pEff = m.pEff := rfl
@[simp] theorem Mod.put_hardHold (m : Mod) (f : Fld) (v : Nat) : (m.put f v).hardHold = m.hardHold := rfl
@[simp] theorem Mod.put_snaps (m : Mod) (f : Fld) (v : Nat) : (m.put f v).snaps = m.snaps := rfl
@[simp] theorem Mod.put_sels (m : Mod) (f : Fld) (v : Nat) : (m.put f v).sels = m.sels := rfl
@[simp] theorem Mod.put_upsSeen (m : Mod) (f : Fld) (v : Nat) : (m.put f v).upsSeen = m.upsSeen := rfl
@[simp] theorem Mod.put_merges (m : Mod) (f : Fld) (v : Nat) : (m.put f v).merges = m.merges := rfl
@[simp] theorem Mod.put_unsent (m : Mod) (f : Fld) (v : Nat) : (m.put f v).unsent = m.unsent := rfl
@[simp] theorem Mod.put_spdm (m : Mod) (f : Fld) (v : Nat) : (m.put f v).spdm = m.spdm := rfl
@[simp] theorem Mod.put_minSvn (m : Mod) (f : Fld) (v : Nat) : (m.put f v).minSvn = m.minSvn := rfl
@[simp] theorem Mod.put_numVfs (m : Mod) (f : Fld) (v : Nat) : (m.put f v).numVfs = m.numVfs := rfl
@[simp] theorem Mod.put_msixAddr (m : Mod) (f : Fld) (v : Nat) : (m.put f v).msixAddr = m.msixAddr := rfl
@[simp] theorem Mod.put_msixCtl (m : Mod) (f : Fld) (v : Nat) : (m.put f v).msixCtl = m.msixCtl := rfl
@[simp] theorem Mod.put_msixPend (m : Mod) (f : Fld) (v : Nat) : (m.put f v).msixPend = m.msixPend := rfl
@[simp] theorem Mod.put_prompter (m : Mod) (f : Fld) (v : Nat) : (m.put f v).prompter = m.prompter := rfl
@[simp] theorem Mod.put_nextImage (m : Mod) (f : Fld) (v : Nat) : (m.put f v).nextImage = m.nextImage := rfl
@[simp] theorem Mod.put_quick (m : Mod) (f : Fld) (v : Nat) : (m.put f v).quick = m.quick := rfl
@[simp] theorem Mod.put_clean (m : Mod) (f : Fld) (v : Nat) : (m.put f v).clean = m.clean := rfl
@[simp] theorem Mod.put_dgens (m : Mod) (f : Fld) (v : Nat) : (m.put f v).dgens = m.dgens := rfl
@[simp] theorem Mod.put_egens (m : Mod) (f : Fld) (v : Nat) : (m.put f v).egens = m.egens := rfl
@[simp] theorem Mod.put_chipWaits (m : Mod) (f : Fld) (v : Nat) : (m.put f v).chipWaits = m.chipWaits := rfl
@[simp] theorem Mod.put_chipHeld (m : Mod) (f : Fld) (v : Nat) : (m.put f v).chipHeld = m.chipHeld := rfl
@[simp] theorem Mod.put_exitHolds (m : Mod) (f : Fld) (v : Nat) : (m.put f v).exitHolds = m.exitHolds := rfl
@[simp] theorem Mod.put_calls (m : Mod) (f : Fld) (v : Nat) : (m.put f v).calls = m.calls := rfl
@[simp] theorem Mod.put_probeFails (m : Mod) (f : Fld) (v : Nat) : (m.put f v).probeFails = m.probeFails := rfl
@[simp] theorem Mod.put_hostOut (m : Mod) (f : Fld) (v : Nat) : (m.put f v).hostOut = m.hostOut := rfl
@[simp] theorem Mod.put_linkDown (m : Mod) (f : Fld) (v : Nat) : (m.put f v).linkDown = m.linkDown := rfl
@[simp] theorem Mod.put_edgeUps (m : Mod) (f : Fld) (v : Nat) : (m.put f v).edgeUps = m.edgeUps := rfl
@[simp] theorem Mod.put_remModule (m : Mod) (f : Fld) (v : Nat) : (m.put f v).remModule = m.remModule := rfl
@[simp] theorem Mod.put_remShared (m : Mod) (f : Fld) (v : Nat) : (m.put f v).remShared = m.remShared := rfl
@[simp] theorem Mod.put_ctr (m : Mod) (f : Fld) (v : Nat) : (m.put f v).ctr = m.ctr := rfl
@[simp] theorem Mod.put_out (m : Mod) (f : Fld) (v : Nat) : (m.put f v).out = m.out := rfl
@[simp] theorem Mod.put_fresh (m : Mod) (f : Fld) (v : Nat) : (m.put f v).fresh = m.fresh := rfl
@[simp] theorem Mod.put_now (m : Mod) (f : Fld) (v : Nat) : (m.put f v).now = m.now := rfl
@[simp] theorem Mod.put_ptp (m : Mod) (f : Fld) (v : Nat) : (m.put f v).ptp = m.ptp := rfl
@[simp] theorem Mod.put_alert (m : Mod) (f : Fld) (v : Nat) : (m.put f v).alert = m.alert := rfl
@[simp] theorem Mod.put_perstLow (m : Mod) (f : Fld) (v : Nat) : (m.put f v).perstLow = m.perstLow := rfl
@[simp] theorem Mod.put_late (m : Mod) (f : Fld) (v : Nat) : (m.put f v).late = m.late := rfl
@[simp] theorem Mod.put_fuses (m : Mod) (f : Fld) (v : Nat) : (m.put f v).fuses = m.fuses := rfl
@[simp] theorem Mod.put_numSet (m : Mod) (f : Fld) (v : Nat) : (m.put f v).numSet = m.numSet := rfl
@[simp] theorem Mod.put_refclkOut (m : Mod) (f : Fld) (v : Nat) : (m.put f v).refclkOut = m.refclkOut := rfl
@[simp] theorem Mod.put_measSrc (m : Mod) (f : Fld) (v : Nat) : (m.put f v).measSrc = m.measSrc := rfl
@[simp] theorem Mod.put_chipAged (m : Mod) (f : Fld) (v : Nat) : (m.put f v).chipAged = m.chipAged := rfl
@[simp] theorem Mod.put_hostArb (m : Mod) (f : Fld) (v : Nat) : (m.put f v).hostArb = m.hostArb := rfl
@[simp] theorem Mod.put_retired (m : Mod) (f : Fld) (v : Nat) : (m.put f v).retired = m.retired := rfl
@[simp] theorem Mod.addSat_cells (m : Mod) (f : Fld) (n : Nat) : (m.addSat f n).cells = m.cells := rfl
@[simp] theorem Mod.addSat_fields (m : Mod) (f : Fld) (n : Nat) : (m.addSat f n).fields = m.fields := rfl
@[simp] theorem Mod.addSat_strat (m : Mod) (f : Fld) (n : Nat) : (m.addSat f n).strat = m.strat := rfl
@[simp] theorem Mod.addSat_stratBad (m : Mod) (f : Fld) (n : Nat) : (m.addSat f n).stratBad = m.stratBad := rfl
@[simp] theorem Mod.addSat_stratLatent (m : Mod) (f : Fld) (n : Nat) : (m.addSat f n).stratLatent = m.stratLatent := rfl
@[simp] theorem Mod.addSat_stratLost (m : Mod) (f : Fld) (n : Nat) : (m.addSat f n).stratLost = m.stratLost := rfl
@[simp] theorem Mod.addSat_stratOpen (m : Mod) (f : Fld) (n : Nat) : (m.addSat f n).stratOpen = m.stratOpen := rfl
@[simp] theorem Mod.addSat_stratKnown (m : Mod) (f : Fld) (n : Nat) : (m.addSat f n).stratKnown = m.stratKnown := rfl
@[simp] theorem Mod.addSat_chans (m : Mod) (f : Fld) (n : Nat) : (m.addSat f n).chans = m.chans := rfl
@[simp] theorem Mod.addSat_routers (m : Mod) (f : Fld) (n : Nat) : (m.addSat f n).routers = m.routers := rfl
@[simp] theorem Mod.addSat_slots (m : Mod) (f : Fld) (n : Nat) : (m.addSat f n).slots = m.slots := rfl
@[simp] theorem Mod.addSat_served (m : Mod) (f : Fld) (n : Nat) : (m.addSat f n).served = m.served := rfl
@[simp] theorem Mod.addSat_ports (m : Mod) (f : Fld) (n : Nat) : (m.addSat f n).ports = m.ports := rfl
@[simp] theorem Mod.addSat_flows (m : Mod) (f : Fld) (n : Nat) : (m.addSat f n).flows = m.flows := rfl
@[simp] theorem Mod.addSat_peers (m : Mod) (f : Fld) (n : Nat) : (m.addSat f n).peers = m.peers := rfl
@[simp] theorem Mod.addSat_tags (m : Mod) (f : Fld) (n : Nat) : (m.addSat f n).tags = m.tags := rfl
@[simp] theorem Mod.addSat_tagWait (m : Mod) (f : Fld) (n : Nat) : (m.addSat f n).tagWait = m.tagWait := rfl
@[simp] theorem Mod.addSat_toHost (m : Mod) (f : Fld) (n : Nat) : (m.addSat f n).toHost = m.toHost := rfl
@[simp] theorem Mod.addSat_ledAdds (m : Mod) (f : Fld) (n : Nat) : (m.addSat f n).ledAdds = m.ledAdds := rfl
@[simp] theorem Mod.addSat_rounds (m : Mod) (f : Fld) (n : Nat) : (m.addSat f n).rounds = m.rounds := rfl
@[simp] theorem Mod.addSat_closed (m : Mod) (f : Fld) (n : Nat) : (m.addSat f n).closed = m.closed := rfl
@[simp] theorem Mod.addSat_bounces (m : Mod) (f : Fld) (n : Nat) : (m.addSat f n).bounces = m.bounces := rfl
@[simp] theorem Mod.addSat_quiet (m : Mod) (f : Fld) (n : Nat) : (m.addSat f n).quiet = m.quiet := rfl
@[simp] theorem Mod.addSat_linked (m : Mod) (f : Fld) (n : Nat) : (m.addSat f n).linked = m.linked := rfl
@[simp] theorem Mod.addSat_cos (m : Mod) (f : Fld) (n : Nat) : (m.addSat f n).cos = m.cos := rfl
@[simp] theorem Mod.addSat_plans (m : Mod) (f : Fld) (n : Nat) : (m.addSat f n).plans = m.plans := rfl
@[simp] theorem Mod.addSat_health (m : Mod) (f : Fld) (n : Nat) : (m.addSat f n).health = m.health := rfl
@[simp] theorem Mod.addSat_power (m : Mod) (f : Fld) (n : Nat) : (m.addSat f n).power = m.power := rfl
@[simp] theorem Mod.addSat_wave (m : Mod) (f : Fld) (n : Nat) : (m.addSat f n).wave = m.wave := rfl
@[simp] theorem Mod.addSat_pEff (m : Mod) (f : Fld) (n : Nat) : (m.addSat f n).pEff = m.pEff := rfl
@[simp] theorem Mod.addSat_hardHold (m : Mod) (f : Fld) (n : Nat) : (m.addSat f n).hardHold = m.hardHold := rfl
@[simp] theorem Mod.addSat_snaps (m : Mod) (f : Fld) (n : Nat) : (m.addSat f n).snaps = m.snaps := rfl
@[simp] theorem Mod.addSat_sels (m : Mod) (f : Fld) (n : Nat) : (m.addSat f n).sels = m.sels := rfl
@[simp] theorem Mod.addSat_upsSeen (m : Mod) (f : Fld) (n : Nat) : (m.addSat f n).upsSeen = m.upsSeen := rfl
@[simp] theorem Mod.addSat_merges (m : Mod) (f : Fld) (n : Nat) : (m.addSat f n).merges = m.merges := rfl
@[simp] theorem Mod.addSat_unsent (m : Mod) (f : Fld) (n : Nat) : (m.addSat f n).unsent = m.unsent := rfl
@[simp] theorem Mod.addSat_spdm (m : Mod) (f : Fld) (n : Nat) : (m.addSat f n).spdm = m.spdm := rfl
@[simp] theorem Mod.addSat_minSvn (m : Mod) (f : Fld) (n : Nat) : (m.addSat f n).minSvn = m.minSvn := rfl
@[simp] theorem Mod.addSat_numVfs (m : Mod) (f : Fld) (n : Nat) : (m.addSat f n).numVfs = m.numVfs := rfl
@[simp] theorem Mod.addSat_msixAddr (m : Mod) (f : Fld) (n : Nat) : (m.addSat f n).msixAddr = m.msixAddr := rfl
@[simp] theorem Mod.addSat_msixCtl (m : Mod) (f : Fld) (n : Nat) : (m.addSat f n).msixCtl = m.msixCtl := rfl
@[simp] theorem Mod.addSat_msixPend (m : Mod) (f : Fld) (n : Nat) : (m.addSat f n).msixPend = m.msixPend := rfl
@[simp] theorem Mod.addSat_prompter (m : Mod) (f : Fld) (n : Nat) : (m.addSat f n).prompter = m.prompter := rfl
@[simp] theorem Mod.addSat_nextImage (m : Mod) (f : Fld) (n : Nat) : (m.addSat f n).nextImage = m.nextImage := rfl
@[simp] theorem Mod.addSat_quick (m : Mod) (f : Fld) (n : Nat) : (m.addSat f n).quick = m.quick := rfl
@[simp] theorem Mod.addSat_clean (m : Mod) (f : Fld) (n : Nat) : (m.addSat f n).clean = m.clean := rfl
@[simp] theorem Mod.addSat_dgens (m : Mod) (f : Fld) (n : Nat) : (m.addSat f n).dgens = m.dgens := rfl
@[simp] theorem Mod.addSat_egens (m : Mod) (f : Fld) (n : Nat) : (m.addSat f n).egens = m.egens := rfl
@[simp] theorem Mod.addSat_chipWaits (m : Mod) (f : Fld) (n : Nat) : (m.addSat f n).chipWaits = m.chipWaits := rfl
@[simp] theorem Mod.addSat_chipHeld (m : Mod) (f : Fld) (n : Nat) : (m.addSat f n).chipHeld = m.chipHeld := rfl
@[simp] theorem Mod.addSat_exitHolds (m : Mod) (f : Fld) (n : Nat) : (m.addSat f n).exitHolds = m.exitHolds := rfl
@[simp] theorem Mod.addSat_calls (m : Mod) (f : Fld) (n : Nat) : (m.addSat f n).calls = m.calls := rfl
@[simp] theorem Mod.addSat_probeFails (m : Mod) (f : Fld) (n : Nat) : (m.addSat f n).probeFails = m.probeFails := rfl
@[simp] theorem Mod.addSat_hostOut (m : Mod) (f : Fld) (n : Nat) : (m.addSat f n).hostOut = m.hostOut := rfl
@[simp] theorem Mod.addSat_linkDown (m : Mod) (f : Fld) (n : Nat) : (m.addSat f n).linkDown = m.linkDown := rfl
@[simp] theorem Mod.addSat_edgeUps (m : Mod) (f : Fld) (n : Nat) : (m.addSat f n).edgeUps = m.edgeUps := rfl
@[simp] theorem Mod.addSat_remModule (m : Mod) (f : Fld) (n : Nat) : (m.addSat f n).remModule = m.remModule := rfl
@[simp] theorem Mod.addSat_remShared (m : Mod) (f : Fld) (n : Nat) : (m.addSat f n).remShared = m.remShared := rfl
@[simp] theorem Mod.addSat_ctr (m : Mod) (f : Fld) (n : Nat) : (m.addSat f n).ctr = m.ctr := rfl
@[simp] theorem Mod.addSat_out (m : Mod) (f : Fld) (n : Nat) : (m.addSat f n).out = m.out := rfl
@[simp] theorem Mod.addSat_fresh (m : Mod) (f : Fld) (n : Nat) : (m.addSat f n).fresh = m.fresh := rfl
@[simp] theorem Mod.addSat_now (m : Mod) (f : Fld) (n : Nat) : (m.addSat f n).now = m.now := rfl
@[simp] theorem Mod.addSat_ptp (m : Mod) (f : Fld) (n : Nat) : (m.addSat f n).ptp = m.ptp := rfl
@[simp] theorem Mod.addSat_alert (m : Mod) (f : Fld) (n : Nat) : (m.addSat f n).alert = m.alert := rfl
@[simp] theorem Mod.addSat_perstLow (m : Mod) (f : Fld) (n : Nat) : (m.addSat f n).perstLow = m.perstLow := rfl
@[simp] theorem Mod.addSat_late (m : Mod) (f : Fld) (n : Nat) : (m.addSat f n).late = m.late := rfl
@[simp] theorem Mod.addSat_fuses (m : Mod) (f : Fld) (n : Nat) : (m.addSat f n).fuses = m.fuses := rfl
@[simp] theorem Mod.addSat_numSet (m : Mod) (f : Fld) (n : Nat) : (m.addSat f n).numSet = m.numSet := rfl
@[simp] theorem Mod.addSat_refclkOut (m : Mod) (f : Fld) (n : Nat) : (m.addSat f n).refclkOut = m.refclkOut := rfl
@[simp] theorem Mod.addSat_measSrc (m : Mod) (f : Fld) (n : Nat) : (m.addSat f n).measSrc = m.measSrc := rfl
@[simp] theorem Mod.addSat_chipAged (m : Mod) (f : Fld) (n : Nat) : (m.addSat f n).chipAged = m.chipAged := rfl
@[simp] theorem Mod.addSat_hostArb (m : Mod) (f : Fld) (n : Nat) : (m.addSat f n).hostArb = m.hostArb := rfl
@[simp] theorem Mod.addSat_retired (m : Mod) (f : Fld) (n : Nat) : (m.addSat f n).retired = m.retired := rfl
@[simp] theorem Mod.setField_regs (m : Mod) (f : Nat) (x : Field) : (m.setField f x).regs = m.regs := rfl
@[simp] theorem Mod.setField_cells (m : Mod) (f : Nat) (x : Field) : (m.setField f x).cells = m.cells := rfl
@[simp] theorem Mod.setField_strat (m : Mod) (f : Nat) (x : Field) : (m.setField f x).strat = m.strat := rfl
@[simp] theorem Mod.setField_stratBad (m : Mod) (f : Nat) (x : Field) : (m.setField f x).stratBad = m.stratBad := rfl
@[simp] theorem Mod.setField_stratLatent (m : Mod) (f : Nat) (x : Field) : (m.setField f x).stratLatent = m.stratLatent := rfl
@[simp] theorem Mod.setField_stratLost (m : Mod) (f : Nat) (x : Field) : (m.setField f x).stratLost = m.stratLost := rfl
@[simp] theorem Mod.setField_stratOpen (m : Mod) (f : Nat) (x : Field) : (m.setField f x).stratOpen = m.stratOpen := rfl
@[simp] theorem Mod.setField_stratKnown (m : Mod) (f : Nat) (x : Field) : (m.setField f x).stratKnown = m.stratKnown := rfl
@[simp] theorem Mod.setField_chans (m : Mod) (f : Nat) (x : Field) : (m.setField f x).chans = m.chans := rfl
@[simp] theorem Mod.setField_routers (m : Mod) (f : Nat) (x : Field) : (m.setField f x).routers = m.routers := rfl
@[simp] theorem Mod.setField_slots (m : Mod) (f : Nat) (x : Field) : (m.setField f x).slots = m.slots := rfl
@[simp] theorem Mod.setField_served (m : Mod) (f : Nat) (x : Field) : (m.setField f x).served = m.served := rfl
@[simp] theorem Mod.setField_ports (m : Mod) (f : Nat) (x : Field) : (m.setField f x).ports = m.ports := rfl
@[simp] theorem Mod.setField_flows (m : Mod) (f : Nat) (x : Field) : (m.setField f x).flows = m.flows := rfl
@[simp] theorem Mod.setField_peers (m : Mod) (f : Nat) (x : Field) : (m.setField f x).peers = m.peers := rfl
@[simp] theorem Mod.setField_tags (m : Mod) (f : Nat) (x : Field) : (m.setField f x).tags = m.tags := rfl
@[simp] theorem Mod.setField_tagWait (m : Mod) (f : Nat) (x : Field) : (m.setField f x).tagWait = m.tagWait := rfl
@[simp] theorem Mod.setField_toHost (m : Mod) (f : Nat) (x : Field) : (m.setField f x).toHost = m.toHost := rfl
@[simp] theorem Mod.setField_ledAdds (m : Mod) (f : Nat) (x : Field) : (m.setField f x).ledAdds = m.ledAdds := rfl
@[simp] theorem Mod.setField_rounds (m : Mod) (f : Nat) (x : Field) : (m.setField f x).rounds = m.rounds := rfl
@[simp] theorem Mod.setField_closed (m : Mod) (f : Nat) (x : Field) : (m.setField f x).closed = m.closed := rfl
@[simp] theorem Mod.setField_bounces (m : Mod) (f : Nat) (x : Field) : (m.setField f x).bounces = m.bounces := rfl
@[simp] theorem Mod.setField_quiet (m : Mod) (f : Nat) (x : Field) : (m.setField f x).quiet = m.quiet := rfl
@[simp] theorem Mod.setField_linked (m : Mod) (f : Nat) (x : Field) : (m.setField f x).linked = m.linked := rfl
@[simp] theorem Mod.setField_cos (m : Mod) (f : Nat) (x : Field) : (m.setField f x).cos = m.cos := rfl
@[simp] theorem Mod.setField_plans (m : Mod) (f : Nat) (x : Field) : (m.setField f x).plans = m.plans := rfl
@[simp] theorem Mod.setField_health (m : Mod) (f : Nat) (x : Field) : (m.setField f x).health = m.health := rfl
@[simp] theorem Mod.setField_power (m : Mod) (f : Nat) (x : Field) : (m.setField f x).power = m.power := rfl
@[simp] theorem Mod.setField_wave (m : Mod) (f : Nat) (x : Field) : (m.setField f x).wave = m.wave := rfl
@[simp] theorem Mod.setField_pEff (m : Mod) (f : Nat) (x : Field) : (m.setField f x).pEff = m.pEff := rfl
@[simp] theorem Mod.setField_hardHold (m : Mod) (f : Nat) (x : Field) : (m.setField f x).hardHold = m.hardHold := rfl
@[simp] theorem Mod.setField_snaps (m : Mod) (f : Nat) (x : Field) : (m.setField f x).snaps = m.snaps := rfl
@[simp] theorem Mod.setField_sels (m : Mod) (f : Nat) (x : Field) : (m.setField f x).sels = m.sels := rfl
@[simp] theorem Mod.setField_upsSeen (m : Mod) (f : Nat) (x : Field) : (m.setField f x).upsSeen = m.upsSeen := rfl
@[simp] theorem Mod.setField_merges (m : Mod) (f : Nat) (x : Field) : (m.setField f x).merges = m.merges := rfl
@[simp] theorem Mod.setField_unsent (m : Mod) (f : Nat) (x : Field) : (m.setField f x).unsent = m.unsent := rfl
@[simp] theorem Mod.setField_spdm (m : Mod) (f : Nat) (x : Field) : (m.setField f x).spdm = m.spdm := rfl
@[simp] theorem Mod.setField_minSvn (m : Mod) (f : Nat) (x : Field) : (m.setField f x).minSvn = m.minSvn := rfl
@[simp] theorem Mod.setField_numVfs (m : Mod) (f : Nat) (x : Field) : (m.setField f x).numVfs = m.numVfs := rfl
@[simp] theorem Mod.setField_msixAddr (m : Mod) (f : Nat) (x : Field) : (m.setField f x).msixAddr = m.msixAddr := rfl
@[simp] theorem Mod.setField_msixCtl (m : Mod) (f : Nat) (x : Field) : (m.setField f x).msixCtl = m.msixCtl := rfl
@[simp] theorem Mod.setField_msixPend (m : Mod) (f : Nat) (x : Field) : (m.setField f x).msixPend = m.msixPend := rfl
@[simp] theorem Mod.setField_prompter (m : Mod) (f : Nat) (x : Field) : (m.setField f x).prompter = m.prompter := rfl
@[simp] theorem Mod.setField_nextImage (m : Mod) (f : Nat) (x : Field) : (m.setField f x).nextImage = m.nextImage := rfl
@[simp] theorem Mod.setField_quick (m : Mod) (f : Nat) (x : Field) : (m.setField f x).quick = m.quick := rfl
@[simp] theorem Mod.setField_clean (m : Mod) (f : Nat) (x : Field) : (m.setField f x).clean = m.clean := rfl
@[simp] theorem Mod.setField_dgens (m : Mod) (f : Nat) (x : Field) : (m.setField f x).dgens = m.dgens := rfl
@[simp] theorem Mod.setField_egens (m : Mod) (f : Nat) (x : Field) : (m.setField f x).egens = m.egens := rfl
@[simp] theorem Mod.setField_chipWaits (m : Mod) (f : Nat) (x : Field) : (m.setField f x).chipWaits = m.chipWaits := rfl
@[simp] theorem Mod.setField_chipHeld (m : Mod) (f : Nat) (x : Field) : (m.setField f x).chipHeld = m.chipHeld := rfl
@[simp] theorem Mod.setField_exitHolds (m : Mod) (f : Nat) (x : Field) : (m.setField f x).exitHolds = m.exitHolds := rfl
@[simp] theorem Mod.setField_calls (m : Mod) (f : Nat) (x : Field) : (m.setField f x).calls = m.calls := rfl
@[simp] theorem Mod.setField_probeFails (m : Mod) (f : Nat) (x : Field) : (m.setField f x).probeFails = m.probeFails := rfl
@[simp] theorem Mod.setField_hostOut (m : Mod) (f : Nat) (x : Field) : (m.setField f x).hostOut = m.hostOut := rfl
@[simp] theorem Mod.setField_linkDown (m : Mod) (f : Nat) (x : Field) : (m.setField f x).linkDown = m.linkDown := rfl
@[simp] theorem Mod.setField_edgeUps (m : Mod) (f : Nat) (x : Field) : (m.setField f x).edgeUps = m.edgeUps := rfl
@[simp] theorem Mod.setField_remModule (m : Mod) (f : Nat) (x : Field) : (m.setField f x).remModule = m.remModule := rfl
@[simp] theorem Mod.setField_remShared (m : Mod) (f : Nat) (x : Field) : (m.setField f x).remShared = m.remShared := rfl
@[simp] theorem Mod.setField_ctr (m : Mod) (f : Nat) (x : Field) : (m.setField f x).ctr = m.ctr := rfl
@[simp] theorem Mod.setField_out (m : Mod) (f : Nat) (x : Field) : (m.setField f x).out = m.out := rfl
@[simp] theorem Mod.setField_fresh (m : Mod) (f : Nat) (x : Field) : (m.setField f x).fresh = m.fresh := rfl
@[simp] theorem Mod.setField_now (m : Mod) (f : Nat) (x : Field) : (m.setField f x).now = m.now := rfl
@[simp] theorem Mod.setField_ptp (m : Mod) (f : Nat) (x : Field) : (m.setField f x).ptp = m.ptp := rfl
@[simp] theorem Mod.setField_alert (m : Mod) (f : Nat) (x : Field) : (m.setField f x).alert = m.alert := rfl
@[simp] theorem Mod.setField_perstLow (m : Mod) (f : Nat) (x : Field) : (m.setField f x).perstLow = m.perstLow := rfl
@[simp] theorem Mod.setField_late (m : Mod) (f : Nat) (x : Field) : (m.setField f x).late = m.late := rfl
@[simp] theorem Mod.setField_fuses (m : Mod) (f : Nat) (x : Field) : (m.setField f x).fuses = m.fuses := rfl
@[simp] theorem Mod.setField_numSet (m : Mod) (f : Nat) (x : Field) : (m.setField f x).numSet = m.numSet := rfl
@[simp] theorem Mod.setField_refclkOut (m : Mod) (f : Nat) (x : Field) : (m.setField f x).refclkOut = m.refclkOut := rfl
@[simp] theorem Mod.setField_measSrc (m : Mod) (f : Nat) (x : Field) : (m.setField f x).measSrc = m.measSrc := rfl
@[simp] theorem Mod.setField_chipAged (m : Mod) (f : Nat) (x : Field) : (m.setField f x).chipAged = m.chipAged := rfl
@[simp] theorem Mod.setField_hostArb (m : Mod) (f : Nat) (x : Field) : (m.setField f x).hostArb = m.hostArb := rfl
@[simp] theorem Mod.setField_retired (m : Mod) (f : Nat) (x : Field) : (m.setField f x).retired = m.retired := rfl
@[simp] theorem Mod.setCo_regs (m : Mod) (c : Nat) (x : Company) : (m.setCo c x).regs = m.regs := rfl
@[simp] theorem Mod.setCo_cells (m : Mod) (c : Nat) (x : Company) : (m.setCo c x).cells = m.cells := rfl
@[simp] theorem Mod.setCo_fields (m : Mod) (c : Nat) (x : Company) : (m.setCo c x).fields = m.fields := rfl
@[simp] theorem Mod.setCo_strat (m : Mod) (c : Nat) (x : Company) : (m.setCo c x).strat = m.strat := rfl
@[simp] theorem Mod.setCo_stratBad (m : Mod) (c : Nat) (x : Company) : (m.setCo c x).stratBad = m.stratBad := rfl
@[simp] theorem Mod.setCo_stratLatent (m : Mod) (c : Nat) (x : Company) : (m.setCo c x).stratLatent = m.stratLatent := rfl
@[simp] theorem Mod.setCo_stratLost (m : Mod) (c : Nat) (x : Company) : (m.setCo c x).stratLost = m.stratLost := rfl
@[simp] theorem Mod.setCo_stratOpen (m : Mod) (c : Nat) (x : Company) : (m.setCo c x).stratOpen = m.stratOpen := rfl
@[simp] theorem Mod.setCo_stratKnown (m : Mod) (c : Nat) (x : Company) : (m.setCo c x).stratKnown = m.stratKnown := rfl
@[simp] theorem Mod.setCo_chans (m : Mod) (c : Nat) (x : Company) : (m.setCo c x).chans = m.chans := rfl
@[simp] theorem Mod.setCo_routers (m : Mod) (c : Nat) (x : Company) : (m.setCo c x).routers = m.routers := rfl
@[simp] theorem Mod.setCo_slots (m : Mod) (c : Nat) (x : Company) : (m.setCo c x).slots = m.slots := rfl
@[simp] theorem Mod.setCo_served (m : Mod) (c : Nat) (x : Company) : (m.setCo c x).served = m.served := rfl
@[simp] theorem Mod.setCo_ports (m : Mod) (c : Nat) (x : Company) : (m.setCo c x).ports = m.ports := rfl
@[simp] theorem Mod.setCo_flows (m : Mod) (c : Nat) (x : Company) : (m.setCo c x).flows = m.flows := rfl
@[simp] theorem Mod.setCo_peers (m : Mod) (c : Nat) (x : Company) : (m.setCo c x).peers = m.peers := rfl
@[simp] theorem Mod.setCo_tags (m : Mod) (c : Nat) (x : Company) : (m.setCo c x).tags = m.tags := rfl
@[simp] theorem Mod.setCo_tagWait (m : Mod) (c : Nat) (x : Company) : (m.setCo c x).tagWait = m.tagWait := rfl
@[simp] theorem Mod.setCo_toHost (m : Mod) (c : Nat) (x : Company) : (m.setCo c x).toHost = m.toHost := rfl
@[simp] theorem Mod.setCo_ledAdds (m : Mod) (c : Nat) (x : Company) : (m.setCo c x).ledAdds = m.ledAdds := rfl
@[simp] theorem Mod.setCo_rounds (m : Mod) (c : Nat) (x : Company) : (m.setCo c x).rounds = m.rounds := rfl
@[simp] theorem Mod.setCo_closed (m : Mod) (c : Nat) (x : Company) : (m.setCo c x).closed = m.closed := rfl
@[simp] theorem Mod.setCo_bounces (m : Mod) (c : Nat) (x : Company) : (m.setCo c x).bounces = m.bounces := rfl
@[simp] theorem Mod.setCo_quiet (m : Mod) (c : Nat) (x : Company) : (m.setCo c x).quiet = m.quiet := rfl
@[simp] theorem Mod.setCo_linked (m : Mod) (c : Nat) (x : Company) : (m.setCo c x).linked = m.linked := rfl
@[simp] theorem Mod.setCo_plans (m : Mod) (c : Nat) (x : Company) : (m.setCo c x).plans = m.plans := rfl
@[simp] theorem Mod.setCo_health (m : Mod) (c : Nat) (x : Company) : (m.setCo c x).health = m.health := rfl
@[simp] theorem Mod.setCo_power (m : Mod) (c : Nat) (x : Company) : (m.setCo c x).power = m.power := rfl
@[simp] theorem Mod.setCo_wave (m : Mod) (c : Nat) (x : Company) : (m.setCo c x).wave = m.wave := rfl
@[simp] theorem Mod.setCo_pEff (m : Mod) (c : Nat) (x : Company) : (m.setCo c x).pEff = m.pEff := rfl
@[simp] theorem Mod.setCo_hardHold (m : Mod) (c : Nat) (x : Company) : (m.setCo c x).hardHold = m.hardHold := rfl
@[simp] theorem Mod.setCo_snaps (m : Mod) (c : Nat) (x : Company) : (m.setCo c x).snaps = m.snaps := rfl
@[simp] theorem Mod.setCo_sels (m : Mod) (c : Nat) (x : Company) : (m.setCo c x).sels = m.sels := rfl
@[simp] theorem Mod.setCo_upsSeen (m : Mod) (c : Nat) (x : Company) : (m.setCo c x).upsSeen = m.upsSeen := rfl
@[simp] theorem Mod.setCo_merges (m : Mod) (c : Nat) (x : Company) : (m.setCo c x).merges = m.merges := rfl
@[simp] theorem Mod.setCo_unsent (m : Mod) (c : Nat) (x : Company) : (m.setCo c x).unsent = m.unsent := rfl
@[simp] theorem Mod.setCo_spdm (m : Mod) (c : Nat) (x : Company) : (m.setCo c x).spdm = m.spdm := rfl
@[simp] theorem Mod.setCo_minSvn (m : Mod) (c : Nat) (x : Company) : (m.setCo c x).minSvn = m.minSvn := rfl
@[simp] theorem Mod.setCo_numVfs (m : Mod) (c : Nat) (x : Company) : (m.setCo c x).numVfs = m.numVfs := rfl
@[simp] theorem Mod.setCo_msixAddr (m : Mod) (c : Nat) (x : Company) : (m.setCo c x).msixAddr = m.msixAddr := rfl
@[simp] theorem Mod.setCo_msixCtl (m : Mod) (c : Nat) (x : Company) : (m.setCo c x).msixCtl = m.msixCtl := rfl
@[simp] theorem Mod.setCo_msixPend (m : Mod) (c : Nat) (x : Company) : (m.setCo c x).msixPend = m.msixPend := rfl
@[simp] theorem Mod.setCo_prompter (m : Mod) (c : Nat) (x : Company) : (m.setCo c x).prompter = m.prompter := rfl
@[simp] theorem Mod.setCo_nextImage (m : Mod) (c : Nat) (x : Company) : (m.setCo c x).nextImage = m.nextImage := rfl
@[simp] theorem Mod.setCo_quick (m : Mod) (c : Nat) (x : Company) : (m.setCo c x).quick = m.quick := rfl
@[simp] theorem Mod.setCo_clean (m : Mod) (c : Nat) (x : Company) : (m.setCo c x).clean = m.clean := rfl
@[simp] theorem Mod.setCo_dgens (m : Mod) (c : Nat) (x : Company) : (m.setCo c x).dgens = m.dgens := rfl
@[simp] theorem Mod.setCo_egens (m : Mod) (c : Nat) (x : Company) : (m.setCo c x).egens = m.egens := rfl
@[simp] theorem Mod.setCo_chipWaits (m : Mod) (c : Nat) (x : Company) : (m.setCo c x).chipWaits = m.chipWaits := rfl
@[simp] theorem Mod.setCo_chipHeld (m : Mod) (c : Nat) (x : Company) : (m.setCo c x).chipHeld = m.chipHeld := rfl
@[simp] theorem Mod.setCo_exitHolds (m : Mod) (c : Nat) (x : Company) : (m.setCo c x).exitHolds = m.exitHolds := rfl
@[simp] theorem Mod.setCo_calls (m : Mod) (c : Nat) (x : Company) : (m.setCo c x).calls = m.calls := rfl
@[simp] theorem Mod.setCo_probeFails (m : Mod) (c : Nat) (x : Company) : (m.setCo c x).probeFails = m.probeFails := rfl
@[simp] theorem Mod.setCo_hostOut (m : Mod) (c : Nat) (x : Company) : (m.setCo c x).hostOut = m.hostOut := rfl
@[simp] theorem Mod.setCo_linkDown (m : Mod) (c : Nat) (x : Company) : (m.setCo c x).linkDown = m.linkDown := rfl
@[simp] theorem Mod.setCo_edgeUps (m : Mod) (c : Nat) (x : Company) : (m.setCo c x).edgeUps = m.edgeUps := rfl
@[simp] theorem Mod.setCo_remModule (m : Mod) (c : Nat) (x : Company) : (m.setCo c x).remModule = m.remModule := rfl
@[simp] theorem Mod.setCo_remShared (m : Mod) (c : Nat) (x : Company) : (m.setCo c x).remShared = m.remShared := rfl
@[simp] theorem Mod.setCo_ctr (m : Mod) (c : Nat) (x : Company) : (m.setCo c x).ctr = m.ctr := rfl
@[simp] theorem Mod.setCo_out (m : Mod) (c : Nat) (x : Company) : (m.setCo c x).out = m.out := rfl
@[simp] theorem Mod.setCo_fresh (m : Mod) (c : Nat) (x : Company) : (m.setCo c x).fresh = m.fresh := rfl
@[simp] theorem Mod.setCo_now (m : Mod) (c : Nat) (x : Company) : (m.setCo c x).now = m.now := rfl
@[simp] theorem Mod.setCo_ptp (m : Mod) (c : Nat) (x : Company) : (m.setCo c x).ptp = m.ptp := rfl
@[simp] theorem Mod.setCo_alert (m : Mod) (c : Nat) (x : Company) : (m.setCo c x).alert = m.alert := rfl
@[simp] theorem Mod.setCo_perstLow (m : Mod) (c : Nat) (x : Company) : (m.setCo c x).perstLow = m.perstLow := rfl
@[simp] theorem Mod.setCo_late (m : Mod) (c : Nat) (x : Company) : (m.setCo c x).late = m.late := rfl
@[simp] theorem Mod.setCo_fuses (m : Mod) (c : Nat) (x : Company) : (m.setCo c x).fuses = m.fuses := rfl
@[simp] theorem Mod.setCo_numSet (m : Mod) (c : Nat) (x : Company) : (m.setCo c x).numSet = m.numSet := rfl
@[simp] theorem Mod.setCo_refclkOut (m : Mod) (c : Nat) (x : Company) : (m.setCo c x).refclkOut = m.refclkOut := rfl
@[simp] theorem Mod.setCo_measSrc (m : Mod) (c : Nat) (x : Company) : (m.setCo c x).measSrc = m.measSrc := rfl
@[simp] theorem Mod.setCo_chipAged (m : Mod) (c : Nat) (x : Company) : (m.setCo c x).chipAged = m.chipAged := rfl
@[simp] theorem Mod.setCo_hostArb (m : Mod) (c : Nat) (x : Company) : (m.setCo c x).hostArb = m.hostArb := rfl
@[simp] theorem Mod.setCo_retired (m : Mod) (c : Nat) (x : Company) : (m.setCo c x).retired = m.retired := rfl
@[simp] theorem Mod.modCo_regs (m : Mod) (c : Nat) (g : Company → Company) : (m.modCo c g).regs = m.regs := rfl
@[simp] theorem Mod.modCo_cells (m : Mod) (c : Nat) (g : Company → Company) : (m.modCo c g).cells = m.cells := rfl
@[simp] theorem Mod.modCo_fields (m : Mod) (c : Nat) (g : Company → Company) : (m.modCo c g).fields = m.fields := rfl
@[simp] theorem Mod.modCo_strat (m : Mod) (c : Nat) (g : Company → Company) : (m.modCo c g).strat = m.strat := rfl
@[simp] theorem Mod.modCo_stratBad (m : Mod) (c : Nat) (g : Company → Company) : (m.modCo c g).stratBad = m.stratBad := rfl
@[simp] theorem Mod.modCo_stratLatent (m : Mod) (c : Nat) (g : Company → Company) : (m.modCo c g).stratLatent = m.stratLatent := rfl
@[simp] theorem Mod.modCo_stratLost (m : Mod) (c : Nat) (g : Company → Company) : (m.modCo c g).stratLost = m.stratLost := rfl
@[simp] theorem Mod.modCo_stratOpen (m : Mod) (c : Nat) (g : Company → Company) : (m.modCo c g).stratOpen = m.stratOpen := rfl
@[simp] theorem Mod.modCo_stratKnown (m : Mod) (c : Nat) (g : Company → Company) : (m.modCo c g).stratKnown = m.stratKnown := rfl
@[simp] theorem Mod.modCo_chans (m : Mod) (c : Nat) (g : Company → Company) : (m.modCo c g).chans = m.chans := rfl
@[simp] theorem Mod.modCo_routers (m : Mod) (c : Nat) (g : Company → Company) : (m.modCo c g).routers = m.routers := rfl
@[simp] theorem Mod.modCo_slots (m : Mod) (c : Nat) (g : Company → Company) : (m.modCo c g).slots = m.slots := rfl
@[simp] theorem Mod.modCo_served (m : Mod) (c : Nat) (g : Company → Company) : (m.modCo c g).served = m.served := rfl
@[simp] theorem Mod.modCo_ports (m : Mod) (c : Nat) (g : Company → Company) : (m.modCo c g).ports = m.ports := rfl
@[simp] theorem Mod.modCo_flows (m : Mod) (c : Nat) (g : Company → Company) : (m.modCo c g).flows = m.flows := rfl
@[simp] theorem Mod.modCo_peers (m : Mod) (c : Nat) (g : Company → Company) : (m.modCo c g).peers = m.peers := rfl
@[simp] theorem Mod.modCo_tags (m : Mod) (c : Nat) (g : Company → Company) : (m.modCo c g).tags = m.tags := rfl
@[simp] theorem Mod.modCo_tagWait (m : Mod) (c : Nat) (g : Company → Company) : (m.modCo c g).tagWait = m.tagWait := rfl
@[simp] theorem Mod.modCo_toHost (m : Mod) (c : Nat) (g : Company → Company) : (m.modCo c g).toHost = m.toHost := rfl
@[simp] theorem Mod.modCo_ledAdds (m : Mod) (c : Nat) (g : Company → Company) : (m.modCo c g).ledAdds = m.ledAdds := rfl
@[simp] theorem Mod.modCo_rounds (m : Mod) (c : Nat) (g : Company → Company) : (m.modCo c g).rounds = m.rounds := rfl
@[simp] theorem Mod.modCo_closed (m : Mod) (c : Nat) (g : Company → Company) : (m.modCo c g).closed = m.closed := rfl
@[simp] theorem Mod.modCo_bounces (m : Mod) (c : Nat) (g : Company → Company) : (m.modCo c g).bounces = m.bounces := rfl
@[simp] theorem Mod.modCo_quiet (m : Mod) (c : Nat) (g : Company → Company) : (m.modCo c g).quiet = m.quiet := rfl
@[simp] theorem Mod.modCo_linked (m : Mod) (c : Nat) (g : Company → Company) : (m.modCo c g).linked = m.linked := rfl
@[simp] theorem Mod.modCo_plans (m : Mod) (c : Nat) (g : Company → Company) : (m.modCo c g).plans = m.plans := rfl
@[simp] theorem Mod.modCo_health (m : Mod) (c : Nat) (g : Company → Company) : (m.modCo c g).health = m.health := rfl
@[simp] theorem Mod.modCo_power (m : Mod) (c : Nat) (g : Company → Company) : (m.modCo c g).power = m.power := rfl
@[simp] theorem Mod.modCo_wave (m : Mod) (c : Nat) (g : Company → Company) : (m.modCo c g).wave = m.wave := rfl
@[simp] theorem Mod.modCo_pEff (m : Mod) (c : Nat) (g : Company → Company) : (m.modCo c g).pEff = m.pEff := rfl
@[simp] theorem Mod.modCo_hardHold (m : Mod) (c : Nat) (g : Company → Company) : (m.modCo c g).hardHold = m.hardHold := rfl
@[simp] theorem Mod.modCo_snaps (m : Mod) (c : Nat) (g : Company → Company) : (m.modCo c g).snaps = m.snaps := rfl
@[simp] theorem Mod.modCo_sels (m : Mod) (c : Nat) (g : Company → Company) : (m.modCo c g).sels = m.sels := rfl
@[simp] theorem Mod.modCo_upsSeen (m : Mod) (c : Nat) (g : Company → Company) : (m.modCo c g).upsSeen = m.upsSeen := rfl
@[simp] theorem Mod.modCo_merges (m : Mod) (c : Nat) (g : Company → Company) : (m.modCo c g).merges = m.merges := rfl
@[simp] theorem Mod.modCo_unsent (m : Mod) (c : Nat) (g : Company → Company) : (m.modCo c g).unsent = m.unsent := rfl
@[simp] theorem Mod.modCo_spdm (m : Mod) (c : Nat) (g : Company → Company) : (m.modCo c g).spdm = m.spdm := rfl
@[simp] theorem Mod.modCo_minSvn (m : Mod) (c : Nat) (g : Company → Company) : (m.modCo c g).minSvn = m.minSvn := rfl
@[simp] theorem Mod.modCo_numVfs (m : Mod) (c : Nat) (g : Company → Company) : (m.modCo c g).numVfs = m.numVfs := rfl
@[simp] theorem Mod.modCo_msixAddr (m : Mod) (c : Nat) (g : Company → Company) : (m.modCo c g).msixAddr = m.msixAddr := rfl
@[simp] theorem Mod.modCo_msixCtl (m : Mod) (c : Nat) (g : Company → Company) : (m.modCo c g).msixCtl = m.msixCtl := rfl
@[simp] theorem Mod.modCo_msixPend (m : Mod) (c : Nat) (g : Company → Company) : (m.modCo c g).msixPend = m.msixPend := rfl
@[simp] theorem Mod.modCo_prompter (m : Mod) (c : Nat) (g : Company → Company) : (m.modCo c g).prompter = m.prompter := rfl
@[simp] theorem Mod.modCo_nextImage (m : Mod) (c : Nat) (g : Company → Company) : (m.modCo c g).nextImage = m.nextImage := rfl
@[simp] theorem Mod.modCo_quick (m : Mod) (c : Nat) (g : Company → Company) : (m.modCo c g).quick = m.quick := rfl
@[simp] theorem Mod.modCo_clean (m : Mod) (c : Nat) (g : Company → Company) : (m.modCo c g).clean = m.clean := rfl
@[simp] theorem Mod.modCo_dgens (m : Mod) (c : Nat) (g : Company → Company) : (m.modCo c g).dgens = m.dgens := rfl
@[simp] theorem Mod.modCo_egens (m : Mod) (c : Nat) (g : Company → Company) : (m.modCo c g).egens = m.egens := rfl
@[simp] theorem Mod.modCo_chipWaits (m : Mod) (c : Nat) (g : Company → Company) : (m.modCo c g).chipWaits = m.chipWaits := rfl
@[simp] theorem Mod.modCo_chipHeld (m : Mod) (c : Nat) (g : Company → Company) : (m.modCo c g).chipHeld = m.chipHeld := rfl
@[simp] theorem Mod.modCo_exitHolds (m : Mod) (c : Nat) (g : Company → Company) : (m.modCo c g).exitHolds = m.exitHolds := rfl
@[simp] theorem Mod.modCo_calls (m : Mod) (c : Nat) (g : Company → Company) : (m.modCo c g).calls = m.calls := rfl
@[simp] theorem Mod.modCo_probeFails (m : Mod) (c : Nat) (g : Company → Company) : (m.modCo c g).probeFails = m.probeFails := rfl
@[simp] theorem Mod.modCo_hostOut (m : Mod) (c : Nat) (g : Company → Company) : (m.modCo c g).hostOut = m.hostOut := rfl
@[simp] theorem Mod.modCo_linkDown (m : Mod) (c : Nat) (g : Company → Company) : (m.modCo c g).linkDown = m.linkDown := rfl
@[simp] theorem Mod.modCo_edgeUps (m : Mod) (c : Nat) (g : Company → Company) : (m.modCo c g).edgeUps = m.edgeUps := rfl
@[simp] theorem Mod.modCo_remModule (m : Mod) (c : Nat) (g : Company → Company) : (m.modCo c g).remModule = m.remModule := rfl
@[simp] theorem Mod.modCo_remShared (m : Mod) (c : Nat) (g : Company → Company) : (m.modCo c g).remShared = m.remShared := rfl
@[simp] theorem Mod.modCo_ctr (m : Mod) (c : Nat) (g : Company → Company) : (m.modCo c g).ctr = m.ctr := rfl
@[simp] theorem Mod.modCo_out (m : Mod) (c : Nat) (g : Company → Company) : (m.modCo c g).out = m.out := rfl
@[simp] theorem Mod.modCo_fresh (m : Mod) (c : Nat) (g : Company → Company) : (m.modCo c g).fresh = m.fresh := rfl
@[simp] theorem Mod.modCo_now (m : Mod) (c : Nat) (g : Company → Company) : (m.modCo c g).now = m.now := rfl
@[simp] theorem Mod.modCo_ptp (m : Mod) (c : Nat) (g : Company → Company) : (m.modCo c g).ptp = m.ptp := rfl
@[simp] theorem Mod.modCo_alert (m : Mod) (c : Nat) (g : Company → Company) : (m.modCo c g).alert = m.alert := rfl
@[simp] theorem Mod.modCo_perstLow (m : Mod) (c : Nat) (g : Company → Company) : (m.modCo c g).perstLow = m.perstLow := rfl
@[simp] theorem Mod.modCo_late (m : Mod) (c : Nat) (g : Company → Company) : (m.modCo c g).late = m.late := rfl
@[simp] theorem Mod.modCo_fuses (m : Mod) (c : Nat) (g : Company → Company) : (m.modCo c g).fuses = m.fuses := rfl
@[simp] theorem Mod.modCo_numSet (m : Mod) (c : Nat) (g : Company → Company) : (m.modCo c g).numSet = m.numSet := rfl
@[simp] theorem Mod.modCo_refclkOut (m : Mod) (c : Nat) (g : Company → Company) : (m.modCo c g).refclkOut = m.refclkOut := rfl
@[simp] theorem Mod.modCo_measSrc (m : Mod) (c : Nat) (g : Company → Company) : (m.modCo c g).measSrc = m.measSrc := rfl
@[simp] theorem Mod.modCo_chipAged (m : Mod) (c : Nat) (g : Company → Company) : (m.modCo c g).chipAged = m.chipAged := rfl
@[simp] theorem Mod.modCo_hostArb (m : Mod) (c : Nat) (g : Company → Company) : (m.modCo c g).hostArb = m.hostArb := rfl
@[simp] theorem Mod.modCo_retired (m : Mod) (c : Nat) (g : Company → Company) : (m.modCo c g).retired = m.retired := rfl
@[simp] theorem Mod.setCell_regs (m : Mod) (f l : Nat) (x : Cell) : (m.setCell f l x).regs = m.regs := rfl
@[simp] theorem Mod.setCell_fields (m : Mod) (f l : Nat) (x : Cell) : (m.setCell f l x).fields = m.fields := rfl
@[simp] theorem Mod.setCell_strat (m : Mod) (f l : Nat) (x : Cell) : (m.setCell f l x).strat = m.strat := rfl
@[simp] theorem Mod.setCell_stratBad (m : Mod) (f l : Nat) (x : Cell) : (m.setCell f l x).stratBad = m.stratBad := rfl
@[simp] theorem Mod.setCell_stratLatent (m : Mod) (f l : Nat) (x : Cell) : (m.setCell f l x).stratLatent = m.stratLatent := rfl
@[simp] theorem Mod.setCell_stratLost (m : Mod) (f l : Nat) (x : Cell) : (m.setCell f l x).stratLost = m.stratLost := rfl
@[simp] theorem Mod.setCell_stratOpen (m : Mod) (f l : Nat) (x : Cell) : (m.setCell f l x).stratOpen = m.stratOpen := rfl
@[simp] theorem Mod.setCell_stratKnown (m : Mod) (f l : Nat) (x : Cell) : (m.setCell f l x).stratKnown = m.stratKnown := rfl
@[simp] theorem Mod.setCell_chans (m : Mod) (f l : Nat) (x : Cell) : (m.setCell f l x).chans = m.chans := rfl
@[simp] theorem Mod.setCell_routers (m : Mod) (f l : Nat) (x : Cell) : (m.setCell f l x).routers = m.routers := rfl
@[simp] theorem Mod.setCell_slots (m : Mod) (f l : Nat) (x : Cell) : (m.setCell f l x).slots = m.slots := rfl
@[simp] theorem Mod.setCell_served (m : Mod) (f l : Nat) (x : Cell) : (m.setCell f l x).served = m.served := rfl
@[simp] theorem Mod.setCell_ports (m : Mod) (f l : Nat) (x : Cell) : (m.setCell f l x).ports = m.ports := rfl
@[simp] theorem Mod.setCell_flows (m : Mod) (f l : Nat) (x : Cell) : (m.setCell f l x).flows = m.flows := rfl
@[simp] theorem Mod.setCell_peers (m : Mod) (f l : Nat) (x : Cell) : (m.setCell f l x).peers = m.peers := rfl
@[simp] theorem Mod.setCell_tags (m : Mod) (f l : Nat) (x : Cell) : (m.setCell f l x).tags = m.tags := rfl
@[simp] theorem Mod.setCell_tagWait (m : Mod) (f l : Nat) (x : Cell) : (m.setCell f l x).tagWait = m.tagWait := rfl
@[simp] theorem Mod.setCell_toHost (m : Mod) (f l : Nat) (x : Cell) : (m.setCell f l x).toHost = m.toHost := rfl
@[simp] theorem Mod.setCell_ledAdds (m : Mod) (f l : Nat) (x : Cell) : (m.setCell f l x).ledAdds = m.ledAdds := rfl
@[simp] theorem Mod.setCell_rounds (m : Mod) (f l : Nat) (x : Cell) : (m.setCell f l x).rounds = m.rounds := rfl
@[simp] theorem Mod.setCell_closed (m : Mod) (f l : Nat) (x : Cell) : (m.setCell f l x).closed = m.closed := rfl
@[simp] theorem Mod.setCell_bounces (m : Mod) (f l : Nat) (x : Cell) : (m.setCell f l x).bounces = m.bounces := rfl
@[simp] theorem Mod.setCell_quiet (m : Mod) (f l : Nat) (x : Cell) : (m.setCell f l x).quiet = m.quiet := rfl
@[simp] theorem Mod.setCell_linked (m : Mod) (f l : Nat) (x : Cell) : (m.setCell f l x).linked = m.linked := rfl
@[simp] theorem Mod.setCell_cos (m : Mod) (f l : Nat) (x : Cell) : (m.setCell f l x).cos = m.cos := rfl
@[simp] theorem Mod.setCell_plans (m : Mod) (f l : Nat) (x : Cell) : (m.setCell f l x).plans = m.plans := rfl
@[simp] theorem Mod.setCell_health (m : Mod) (f l : Nat) (x : Cell) : (m.setCell f l x).health = m.health := rfl
@[simp] theorem Mod.setCell_power (m : Mod) (f l : Nat) (x : Cell) : (m.setCell f l x).power = m.power := rfl
@[simp] theorem Mod.setCell_wave (m : Mod) (f l : Nat) (x : Cell) : (m.setCell f l x).wave = m.wave := rfl
@[simp] theorem Mod.setCell_pEff (m : Mod) (f l : Nat) (x : Cell) : (m.setCell f l x).pEff = m.pEff := rfl
@[simp] theorem Mod.setCell_hardHold (m : Mod) (f l : Nat) (x : Cell) : (m.setCell f l x).hardHold = m.hardHold := rfl
@[simp] theorem Mod.setCell_snaps (m : Mod) (f l : Nat) (x : Cell) : (m.setCell f l x).snaps = m.snaps := rfl
@[simp] theorem Mod.setCell_sels (m : Mod) (f l : Nat) (x : Cell) : (m.setCell f l x).sels = m.sels := rfl
@[simp] theorem Mod.setCell_upsSeen (m : Mod) (f l : Nat) (x : Cell) : (m.setCell f l x).upsSeen = m.upsSeen := rfl
@[simp] theorem Mod.setCell_merges (m : Mod) (f l : Nat) (x : Cell) : (m.setCell f l x).merges = m.merges := rfl
@[simp] theorem Mod.setCell_unsent (m : Mod) (f l : Nat) (x : Cell) : (m.setCell f l x).unsent = m.unsent := rfl
@[simp] theorem Mod.setCell_spdm (m : Mod) (f l : Nat) (x : Cell) : (m.setCell f l x).spdm = m.spdm := rfl
@[simp] theorem Mod.setCell_minSvn (m : Mod) (f l : Nat) (x : Cell) : (m.setCell f l x).minSvn = m.minSvn := rfl
@[simp] theorem Mod.setCell_numVfs (m : Mod) (f l : Nat) (x : Cell) : (m.setCell f l x).numVfs = m.numVfs := rfl
@[simp] theorem Mod.setCell_msixAddr (m : Mod) (f l : Nat) (x : Cell) : (m.setCell f l x).msixAddr = m.msixAddr := rfl
@[simp] theorem Mod.setCell_msixCtl (m : Mod) (f l : Nat) (x : Cell) : (m.setCell f l x).msixCtl = m.msixCtl := rfl
@[simp] theorem Mod.setCell_msixPend (m : Mod) (f l : Nat) (x : Cell) : (m.setCell f l x).msixPend = m.msixPend := rfl
@[simp] theorem Mod.setCell_prompter (m : Mod) (f l : Nat) (x : Cell) : (m.setCell f l x).prompter = m.prompter := rfl
@[simp] theorem Mod.setCell_nextImage (m : Mod) (f l : Nat) (x : Cell) : (m.setCell f l x).nextImage = m.nextImage := rfl
@[simp] theorem Mod.setCell_quick (m : Mod) (f l : Nat) (x : Cell) : (m.setCell f l x).quick = m.quick := rfl
@[simp] theorem Mod.setCell_clean (m : Mod) (f l : Nat) (x : Cell) : (m.setCell f l x).clean = m.clean := rfl
@[simp] theorem Mod.setCell_dgens (m : Mod) (f l : Nat) (x : Cell) : (m.setCell f l x).dgens = m.dgens := rfl
@[simp] theorem Mod.setCell_egens (m : Mod) (f l : Nat) (x : Cell) : (m.setCell f l x).egens = m.egens := rfl
@[simp] theorem Mod.setCell_chipWaits (m : Mod) (f l : Nat) (x : Cell) : (m.setCell f l x).chipWaits = m.chipWaits := rfl
@[simp] theorem Mod.setCell_chipHeld (m : Mod) (f l : Nat) (x : Cell) : (m.setCell f l x).chipHeld = m.chipHeld := rfl
@[simp] theorem Mod.setCell_exitHolds (m : Mod) (f l : Nat) (x : Cell) : (m.setCell f l x).exitHolds = m.exitHolds := rfl
@[simp] theorem Mod.setCell_calls (m : Mod) (f l : Nat) (x : Cell) : (m.setCell f l x).calls = m.calls := rfl
@[simp] theorem Mod.setCell_probeFails (m : Mod) (f l : Nat) (x : Cell) : (m.setCell f l x).probeFails = m.probeFails := rfl
@[simp] theorem Mod.setCell_hostOut (m : Mod) (f l : Nat) (x : Cell) : (m.setCell f l x).hostOut = m.hostOut := rfl
@[simp] theorem Mod.setCell_linkDown (m : Mod) (f l : Nat) (x : Cell) : (m.setCell f l x).linkDown = m.linkDown := rfl
@[simp] theorem Mod.setCell_edgeUps (m : Mod) (f l : Nat) (x : Cell) : (m.setCell f l x).edgeUps = m.edgeUps := rfl
@[simp] theorem Mod.setCell_remModule (m : Mod) (f l : Nat) (x : Cell) : (m.setCell f l x).remModule = m.remModule := rfl
@[simp] theorem Mod.setCell_remShared (m : Mod) (f l : Nat) (x : Cell) : (m.setCell f l x).remShared = m.remShared := rfl
@[simp] theorem Mod.setCell_ctr (m : Mod) (f l : Nat) (x : Cell) : (m.setCell f l x).ctr = m.ctr := rfl
@[simp] theorem Mod.setCell_out (m : Mod) (f l : Nat) (x : Cell) : (m.setCell f l x).out = m.out := rfl
@[simp] theorem Mod.setCell_fresh (m : Mod) (f l : Nat) (x : Cell) : (m.setCell f l x).fresh = m.fresh := rfl
@[simp] theorem Mod.setCell_now (m : Mod) (f l : Nat) (x : Cell) : (m.setCell f l x).now = m.now := rfl
@[simp] theorem Mod.setCell_ptp (m : Mod) (f l : Nat) (x : Cell) : (m.setCell f l x).ptp = m.ptp := rfl
@[simp] theorem Mod.setCell_alert (m : Mod) (f l : Nat) (x : Cell) : (m.setCell f l x).alert = m.alert := rfl
@[simp] theorem Mod.setCell_perstLow (m : Mod) (f l : Nat) (x : Cell) : (m.setCell f l x).perstLow = m.perstLow := rfl
@[simp] theorem Mod.setCell_late (m : Mod) (f l : Nat) (x : Cell) : (m.setCell f l x).late = m.late := rfl
@[simp] theorem Mod.setCell_fuses (m : Mod) (f l : Nat) (x : Cell) : (m.setCell f l x).fuses = m.fuses := rfl
@[simp] theorem Mod.setCell_numSet (m : Mod) (f l : Nat) (x : Cell) : (m.setCell f l x).numSet = m.numSet := rfl
@[simp] theorem Mod.setCell_refclkOut (m : Mod) (f l : Nat) (x : Cell) : (m.setCell f l x).refclkOut = m.refclkOut := rfl
@[simp] theorem Mod.setCell_measSrc (m : Mod) (f l : Nat) (x : Cell) : (m.setCell f l x).measSrc = m.measSrc := rfl
@[simp] theorem Mod.setCell_chipAged (m : Mod) (f l : Nat) (x : Cell) : (m.setCell f l x).chipAged = m.chipAged := rfl
@[simp] theorem Mod.setCell_hostArb (m : Mod) (f l : Nat) (x : Cell) : (m.setCell f l x).hostArb = m.hostArb := rfl
@[simp] theorem Mod.setCell_retired (m : Mod) (f l : Nat) (x : Cell) : (m.setCell f l x).retired = m.retired := rfl
@[simp] theorem Mod.modCell_regs (m : Mod) (f l : Nat) (g : Cell → Cell) : (m.modCell f l g).regs = m.regs := rfl
@[simp] theorem Mod.modCell_fields (m : Mod) (f l : Nat) (g : Cell → Cell) : (m.modCell f l g).fields = m.fields := rfl
@[simp] theorem Mod.modCell_strat (m : Mod) (f l : Nat) (g : Cell → Cell) : (m.modCell f l g).strat = m.strat := rfl
@[simp] theorem Mod.modCell_stratBad (m : Mod) (f l : Nat) (g : Cell → Cell) : (m.modCell f l g).stratBad = m.stratBad := rfl
@[simp] theorem Mod.modCell_stratLatent (m : Mod) (f l : Nat) (g : Cell → Cell) : (m.modCell f l g).stratLatent = m.stratLatent := rfl
@[simp] theorem Mod.modCell_stratLost (m : Mod) (f l : Nat) (g : Cell → Cell) : (m.modCell f l g).stratLost = m.stratLost := rfl
@[simp] theorem Mod.modCell_stratOpen (m : Mod) (f l : Nat) (g : Cell → Cell) : (m.modCell f l g).stratOpen = m.stratOpen := rfl
@[simp] theorem Mod.modCell_stratKnown (m : Mod) (f l : Nat) (g : Cell → Cell) : (m.modCell f l g).stratKnown = m.stratKnown := rfl
@[simp] theorem Mod.modCell_chans (m : Mod) (f l : Nat) (g : Cell → Cell) : (m.modCell f l g).chans = m.chans := rfl
@[simp] theorem Mod.modCell_routers (m : Mod) (f l : Nat) (g : Cell → Cell) : (m.modCell f l g).routers = m.routers := rfl
@[simp] theorem Mod.modCell_slots (m : Mod) (f l : Nat) (g : Cell → Cell) : (m.modCell f l g).slots = m.slots := rfl
@[simp] theorem Mod.modCell_served (m : Mod) (f l : Nat) (g : Cell → Cell) : (m.modCell f l g).served = m.served := rfl
@[simp] theorem Mod.modCell_ports (m : Mod) (f l : Nat) (g : Cell → Cell) : (m.modCell f l g).ports = m.ports := rfl
@[simp] theorem Mod.modCell_flows (m : Mod) (f l : Nat) (g : Cell → Cell) : (m.modCell f l g).flows = m.flows := rfl
@[simp] theorem Mod.modCell_peers (m : Mod) (f l : Nat) (g : Cell → Cell) : (m.modCell f l g).peers = m.peers := rfl
@[simp] theorem Mod.modCell_tags (m : Mod) (f l : Nat) (g : Cell → Cell) : (m.modCell f l g).tags = m.tags := rfl
@[simp] theorem Mod.modCell_tagWait (m : Mod) (f l : Nat) (g : Cell → Cell) : (m.modCell f l g).tagWait = m.tagWait := rfl
@[simp] theorem Mod.modCell_toHost (m : Mod) (f l : Nat) (g : Cell → Cell) : (m.modCell f l g).toHost = m.toHost := rfl
@[simp] theorem Mod.modCell_ledAdds (m : Mod) (f l : Nat) (g : Cell → Cell) : (m.modCell f l g).ledAdds = m.ledAdds := rfl
@[simp] theorem Mod.modCell_rounds (m : Mod) (f l : Nat) (g : Cell → Cell) : (m.modCell f l g).rounds = m.rounds := rfl
@[simp] theorem Mod.modCell_closed (m : Mod) (f l : Nat) (g : Cell → Cell) : (m.modCell f l g).closed = m.closed := rfl
@[simp] theorem Mod.modCell_bounces (m : Mod) (f l : Nat) (g : Cell → Cell) : (m.modCell f l g).bounces = m.bounces := rfl
@[simp] theorem Mod.modCell_quiet (m : Mod) (f l : Nat) (g : Cell → Cell) : (m.modCell f l g).quiet = m.quiet := rfl
@[simp] theorem Mod.modCell_linked (m : Mod) (f l : Nat) (g : Cell → Cell) : (m.modCell f l g).linked = m.linked := rfl
@[simp] theorem Mod.modCell_cos (m : Mod) (f l : Nat) (g : Cell → Cell) : (m.modCell f l g).cos = m.cos := rfl
@[simp] theorem Mod.modCell_plans (m : Mod) (f l : Nat) (g : Cell → Cell) : (m.modCell f l g).plans = m.plans := rfl
@[simp] theorem Mod.modCell_health (m : Mod) (f l : Nat) (g : Cell → Cell) : (m.modCell f l g).health = m.health := rfl
@[simp] theorem Mod.modCell_power (m : Mod) (f l : Nat) (g : Cell → Cell) : (m.modCell f l g).power = m.power := rfl
@[simp] theorem Mod.modCell_wave (m : Mod) (f l : Nat) (g : Cell → Cell) : (m.modCell f l g).wave = m.wave := rfl
@[simp] theorem Mod.modCell_pEff (m : Mod) (f l : Nat) (g : Cell → Cell) : (m.modCell f l g).pEff = m.pEff := rfl
@[simp] theorem Mod.modCell_hardHold (m : Mod) (f l : Nat) (g : Cell → Cell) : (m.modCell f l g).hardHold = m.hardHold := rfl
@[simp] theorem Mod.modCell_snaps (m : Mod) (f l : Nat) (g : Cell → Cell) : (m.modCell f l g).snaps = m.snaps := rfl
@[simp] theorem Mod.modCell_sels (m : Mod) (f l : Nat) (g : Cell → Cell) : (m.modCell f l g).sels = m.sels := rfl
@[simp] theorem Mod.modCell_upsSeen (m : Mod) (f l : Nat) (g : Cell → Cell) : (m.modCell f l g).upsSeen = m.upsSeen := rfl
@[simp] theorem Mod.modCell_merges (m : Mod) (f l : Nat) (g : Cell → Cell) : (m.modCell f l g).merges = m.merges := rfl
@[simp] theorem Mod.modCell_unsent (m : Mod) (f l : Nat) (g : Cell → Cell) : (m.modCell f l g).unsent = m.unsent := rfl
@[simp] theorem Mod.modCell_spdm (m : Mod) (f l : Nat) (g : Cell → Cell) : (m.modCell f l g).spdm = m.spdm := rfl
@[simp] theorem Mod.modCell_minSvn (m : Mod) (f l : Nat) (g : Cell → Cell) : (m.modCell f l g).minSvn = m.minSvn := rfl
@[simp] theorem Mod.modCell_numVfs (m : Mod) (f l : Nat) (g : Cell → Cell) : (m.modCell f l g).numVfs = m.numVfs := rfl
@[simp] theorem Mod.modCell_msixAddr (m : Mod) (f l : Nat) (g : Cell → Cell) : (m.modCell f l g).msixAddr = m.msixAddr := rfl
@[simp] theorem Mod.modCell_msixCtl (m : Mod) (f l : Nat) (g : Cell → Cell) : (m.modCell f l g).msixCtl = m.msixCtl := rfl
@[simp] theorem Mod.modCell_msixPend (m : Mod) (f l : Nat) (g : Cell → Cell) : (m.modCell f l g).msixPend = m.msixPend := rfl
@[simp] theorem Mod.modCell_prompter (m : Mod) (f l : Nat) (g : Cell → Cell) : (m.modCell f l g).prompter = m.prompter := rfl
@[simp] theorem Mod.modCell_nextImage (m : Mod) (f l : Nat) (g : Cell → Cell) : (m.modCell f l g).nextImage = m.nextImage := rfl
@[simp] theorem Mod.modCell_quick (m : Mod) (f l : Nat) (g : Cell → Cell) : (m.modCell f l g).quick = m.quick := rfl
@[simp] theorem Mod.modCell_clean (m : Mod) (f l : Nat) (g : Cell → Cell) : (m.modCell f l g).clean = m.clean := rfl
@[simp] theorem Mod.modCell_dgens (m : Mod) (f l : Nat) (g : Cell → Cell) : (m.modCell f l g).dgens = m.dgens := rfl
@[simp] theorem Mod.modCell_egens (m : Mod) (f l : Nat) (g : Cell → Cell) : (m.modCell f l g).egens = m.egens := rfl
@[simp] theorem Mod.modCell_chipWaits (m : Mod) (f l : Nat) (g : Cell → Cell) : (m.modCell f l g).chipWaits = m.chipWaits := rfl
@[simp] theorem Mod.modCell_chipHeld (m : Mod) (f l : Nat) (g : Cell → Cell) : (m.modCell f l g).chipHeld = m.chipHeld := rfl
@[simp] theorem Mod.modCell_exitHolds (m : Mod) (f l : Nat) (g : Cell → Cell) : (m.modCell f l g).exitHolds = m.exitHolds := rfl
@[simp] theorem Mod.modCell_calls (m : Mod) (f l : Nat) (g : Cell → Cell) : (m.modCell f l g).calls = m.calls := rfl
@[simp] theorem Mod.modCell_probeFails (m : Mod) (f l : Nat) (g : Cell → Cell) : (m.modCell f l g).probeFails = m.probeFails := rfl
@[simp] theorem Mod.modCell_hostOut (m : Mod) (f l : Nat) (g : Cell → Cell) : (m.modCell f l g).hostOut = m.hostOut := rfl
@[simp] theorem Mod.modCell_linkDown (m : Mod) (f l : Nat) (g : Cell → Cell) : (m.modCell f l g).linkDown = m.linkDown := rfl
@[simp] theorem Mod.modCell_edgeUps (m : Mod) (f l : Nat) (g : Cell → Cell) : (m.modCell f l g).edgeUps = m.edgeUps := rfl
@[simp] theorem Mod.modCell_remModule (m : Mod) (f l : Nat) (g : Cell → Cell) : (m.modCell f l g).remModule = m.remModule := rfl
@[simp] theorem Mod.modCell_remShared (m : Mod) (f l : Nat) (g : Cell → Cell) : (m.modCell f l g).remShared = m.remShared := rfl
@[simp] theorem Mod.modCell_ctr (m : Mod) (f l : Nat) (g : Cell → Cell) : (m.modCell f l g).ctr = m.ctr := rfl
@[simp] theorem Mod.modCell_out (m : Mod) (f l : Nat) (g : Cell → Cell) : (m.modCell f l g).out = m.out := rfl
@[simp] theorem Mod.modCell_fresh (m : Mod) (f l : Nat) (g : Cell → Cell) : (m.modCell f l g).fresh = m.fresh := rfl
@[simp] theorem Mod.modCell_now (m : Mod) (f l : Nat) (g : Cell → Cell) : (m.modCell f l g).now = m.now := rfl
@[simp] theorem Mod.modCell_ptp (m : Mod) (f l : Nat) (g : Cell → Cell) : (m.modCell f l g).ptp = m.ptp := rfl
@[simp] theorem Mod.modCell_alert (m : Mod) (f l : Nat) (g : Cell → Cell) : (m.modCell f l g).alert = m.alert := rfl
@[simp] theorem Mod.modCell_perstLow (m : Mod) (f l : Nat) (g : Cell → Cell) : (m.modCell f l g).perstLow = m.perstLow := rfl
@[simp] theorem Mod.modCell_late (m : Mod) (f l : Nat) (g : Cell → Cell) : (m.modCell f l g).late = m.late := rfl
@[simp] theorem Mod.modCell_fuses (m : Mod) (f l : Nat) (g : Cell → Cell) : (m.modCell f l g).fuses = m.fuses := rfl
@[simp] theorem Mod.modCell_numSet (m : Mod) (f l : Nat) (g : Cell → Cell) : (m.modCell f l g).numSet = m.numSet := rfl
@[simp] theorem Mod.modCell_refclkOut (m : Mod) (f l : Nat) (g : Cell → Cell) : (m.modCell f l g).refclkOut = m.refclkOut := rfl
@[simp] theorem Mod.modCell_measSrc (m : Mod) (f l : Nat) (g : Cell → Cell) : (m.modCell f l g).measSrc = m.measSrc := rfl
@[simp] theorem Mod.modCell_chipAged (m : Mod) (f l : Nat) (g : Cell → Cell) : (m.modCell f l g).chipAged = m.chipAged := rfl
@[simp] theorem Mod.modCell_hostArb (m : Mod) (f l : Nat) (g : Cell → Cell) : (m.modCell f l g).hostArb = m.hostArb := rfl
@[simp] theorem Mod.modCell_retired (m : Mod) (f l : Nat) (g : Cell → Cell) : (m.modCell f l g).retired = m.retired := rfl
@[simp] theorem Mod.count_regs (m : Mod) (k a f l b n : Nat) : (m.count k a f l b n).regs = m.regs := rfl
@[simp] theorem Mod.count_cells (m : Mod) (k a f l b n : Nat) : (m.count k a f l b n).cells = m.cells := rfl
@[simp] theorem Mod.count_fields (m : Mod) (k a f l b n : Nat) : (m.count k a f l b n).fields = m.fields := rfl
@[simp] theorem Mod.count_strat (m : Mod) (k a f l b n : Nat) : (m.count k a f l b n).strat = m.strat := rfl
@[simp] theorem Mod.count_stratBad (m : Mod) (k a f l b n : Nat) : (m.count k a f l b n).stratBad = m.stratBad := rfl
@[simp] theorem Mod.count_stratLatent (m : Mod) (k a f l b n : Nat) : (m.count k a f l b n).stratLatent = m.stratLatent := rfl
@[simp] theorem Mod.count_stratLost (m : Mod) (k a f l b n : Nat) : (m.count k a f l b n).stratLost = m.stratLost := rfl
@[simp] theorem Mod.count_stratOpen (m : Mod) (k a f l b n : Nat) : (m.count k a f l b n).stratOpen = m.stratOpen := rfl
@[simp] theorem Mod.count_stratKnown (m : Mod) (k a f l b n : Nat) : (m.count k a f l b n).stratKnown = m.stratKnown := rfl
@[simp] theorem Mod.count_chans (m : Mod) (k a f l b n : Nat) : (m.count k a f l b n).chans = m.chans := rfl
@[simp] theorem Mod.count_routers (m : Mod) (k a f l b n : Nat) : (m.count k a f l b n).routers = m.routers := rfl
@[simp] theorem Mod.count_slots (m : Mod) (k a f l b n : Nat) : (m.count k a f l b n).slots = m.slots := rfl
@[simp] theorem Mod.count_served (m : Mod) (k a f l b n : Nat) : (m.count k a f l b n).served = m.served := rfl
@[simp] theorem Mod.count_ports (m : Mod) (k a f l b n : Nat) : (m.count k a f l b n).ports = m.ports := rfl
@[simp] theorem Mod.count_flows (m : Mod) (k a f l b n : Nat) : (m.count k a f l b n).flows = m.flows := rfl
@[simp] theorem Mod.count_peers (m : Mod) (k a f l b n : Nat) : (m.count k a f l b n).peers = m.peers := rfl
@[simp] theorem Mod.count_tags (m : Mod) (k a f l b n : Nat) : (m.count k a f l b n).tags = m.tags := rfl
@[simp] theorem Mod.count_tagWait (m : Mod) (k a f l b n : Nat) : (m.count k a f l b n).tagWait = m.tagWait := rfl
@[simp] theorem Mod.count_toHost (m : Mod) (k a f l b n : Nat) : (m.count k a f l b n).toHost = m.toHost := rfl
@[simp] theorem Mod.count_ledAdds (m : Mod) (k a f l b n : Nat) : (m.count k a f l b n).ledAdds = m.ledAdds := rfl
@[simp] theorem Mod.count_rounds (m : Mod) (k a f l b n : Nat) : (m.count k a f l b n).rounds = m.rounds := rfl
@[simp] theorem Mod.count_closed (m : Mod) (k a f l b n : Nat) : (m.count k a f l b n).closed = m.closed := rfl
@[simp] theorem Mod.count_bounces (m : Mod) (k a f l b n : Nat) : (m.count k a f l b n).bounces = m.bounces := rfl
@[simp] theorem Mod.count_quiet (m : Mod) (k a f l b n : Nat) : (m.count k a f l b n).quiet = m.quiet := rfl
@[simp] theorem Mod.count_linked (m : Mod) (k a f l b n : Nat) : (m.count k a f l b n).linked = m.linked := rfl
@[simp] theorem Mod.count_cos (m : Mod) (k a f l b n : Nat) : (m.count k a f l b n).cos = m.cos := rfl
@[simp] theorem Mod.count_plans (m : Mod) (k a f l b n : Nat) : (m.count k a f l b n).plans = m.plans := rfl
@[simp] theorem Mod.count_health (m : Mod) (k a f l b n : Nat) : (m.count k a f l b n).health = m.health := rfl
@[simp] theorem Mod.count_power (m : Mod) (k a f l b n : Nat) : (m.count k a f l b n).power = m.power := rfl
@[simp] theorem Mod.count_wave (m : Mod) (k a f l b n : Nat) : (m.count k a f l b n).wave = m.wave := rfl
@[simp] theorem Mod.count_pEff (m : Mod) (k a f l b n : Nat) : (m.count k a f l b n).pEff = m.pEff := rfl
@[simp] theorem Mod.count_hardHold (m : Mod) (k a f l b n : Nat) : (m.count k a f l b n).hardHold = m.hardHold := rfl
@[simp] theorem Mod.count_snaps (m : Mod) (k a f l b n : Nat) : (m.count k a f l b n).snaps = m.snaps := rfl
@[simp] theorem Mod.count_sels (m : Mod) (k a f l b n : Nat) : (m.count k a f l b n).sels = m.sels := rfl
@[simp] theorem Mod.count_upsSeen (m : Mod) (k a f l b n : Nat) : (m.count k a f l b n).upsSeen = m.upsSeen := rfl
@[simp] theorem Mod.count_merges (m : Mod) (k a f l b n : Nat) : (m.count k a f l b n).merges = m.merges := rfl
@[simp] theorem Mod.count_unsent (m : Mod) (k a f l b n : Nat) : (m.count k a f l b n).unsent = m.unsent := rfl
@[simp] theorem Mod.count_spdm (m : Mod) (k a f l b n : Nat) : (m.count k a f l b n).spdm = m.spdm := rfl
@[simp] theorem Mod.count_minSvn (m : Mod) (k a f l b n : Nat) : (m.count k a f l b n).minSvn = m.minSvn := rfl
@[simp] theorem Mod.count_numVfs (m : Mod) (k a f l b n : Nat) : (m.count k a f l b n).numVfs = m.numVfs := rfl
@[simp] theorem Mod.count_msixAddr (m : Mod) (k a f l b n : Nat) : (m.count k a f l b n).msixAddr = m.msixAddr := rfl
@[simp] theorem Mod.count_msixCtl (m : Mod) (k a f l b n : Nat) : (m.count k a f l b n).msixCtl = m.msixCtl := rfl
@[simp] theorem Mod.count_msixPend (m : Mod) (k a f l b n : Nat) : (m.count k a f l b n).msixPend = m.msixPend := rfl
@[simp] theorem Mod.count_prompter (m : Mod) (k a f l b n : Nat) : (m.count k a f l b n).prompter = m.prompter := rfl
@[simp] theorem Mod.count_nextImage (m : Mod) (k a f l b n : Nat) : (m.count k a f l b n).nextImage = m.nextImage := rfl
@[simp] theorem Mod.count_quick (m : Mod) (k a f l b n : Nat) : (m.count k a f l b n).quick = m.quick := rfl
@[simp] theorem Mod.count_clean (m : Mod) (k a f l b n : Nat) : (m.count k a f l b n).clean = m.clean := rfl
@[simp] theorem Mod.count_dgens (m : Mod) (k a f l b n : Nat) : (m.count k a f l b n).dgens = m.dgens := rfl
@[simp] theorem Mod.count_egens (m : Mod) (k a f l b n : Nat) : (m.count k a f l b n).egens = m.egens := rfl
@[simp] theorem Mod.count_chipWaits (m : Mod) (k a f l b n : Nat) : (m.count k a f l b n).chipWaits = m.chipWaits := rfl
@[simp] theorem Mod.count_chipHeld (m : Mod) (k a f l b n : Nat) : (m.count k a f l b n).chipHeld = m.chipHeld := rfl
@[simp] theorem Mod.count_exitHolds (m : Mod) (k a f l b n : Nat) : (m.count k a f l b n).exitHolds = m.exitHolds := rfl
@[simp] theorem Mod.count_calls (m : Mod) (k a f l b n : Nat) : (m.count k a f l b n).calls = m.calls := rfl
@[simp] theorem Mod.count_probeFails (m : Mod) (k a f l b n : Nat) : (m.count k a f l b n).probeFails = m.probeFails := rfl
@[simp] theorem Mod.count_hostOut (m : Mod) (k a f l b n : Nat) : (m.count k a f l b n).hostOut = m.hostOut := rfl
@[simp] theorem Mod.count_linkDown (m : Mod) (k a f l b n : Nat) : (m.count k a f l b n).linkDown = m.linkDown := rfl
@[simp] theorem Mod.count_edgeUps (m : Mod) (k a f l b n : Nat) : (m.count k a f l b n).edgeUps = m.edgeUps := rfl
@[simp] theorem Mod.count_remModule (m : Mod) (k a f l b n : Nat) : (m.count k a f l b n).remModule = m.remModule := rfl
@[simp] theorem Mod.count_remShared (m : Mod) (k a f l b n : Nat) : (m.count k a f l b n).remShared = m.remShared := rfl
@[simp] theorem Mod.count_out (m : Mod) (k a f l b n : Nat) : (m.count k a f l b n).out = m.out := rfl
@[simp] theorem Mod.count_fresh (m : Mod) (k a f l b n : Nat) : (m.count k a f l b n).fresh = m.fresh := rfl
@[simp] theorem Mod.count_now (m : Mod) (k a f l b n : Nat) : (m.count k a f l b n).now = m.now := rfl
@[simp] theorem Mod.count_ptp (m : Mod) (k a f l b n : Nat) : (m.count k a f l b n).ptp = m.ptp := rfl
@[simp] theorem Mod.count_alert (m : Mod) (k a f l b n : Nat) : (m.count k a f l b n).alert = m.alert := rfl
@[simp] theorem Mod.count_perstLow (m : Mod) (k a f l b n : Nat) : (m.count k a f l b n).perstLow = m.perstLow := rfl
@[simp] theorem Mod.count_late (m : Mod) (k a f l b n : Nat) : (m.count k a f l b n).late = m.late := rfl
@[simp] theorem Mod.count_fuses (m : Mod) (k a f l b n : Nat) : (m.count k a f l b n).fuses = m.fuses := rfl
@[simp] theorem Mod.count_numSet (m : Mod) (k a f l b n : Nat) : (m.count k a f l b n).numSet = m.numSet := rfl
@[simp] theorem Mod.count_refclkOut (m : Mod) (k a f l b n : Nat) : (m.count k a f l b n).refclkOut = m.refclkOut := rfl
@[simp] theorem Mod.count_measSrc (m : Mod) (k a f l b n : Nat) : (m.count k a f l b n).measSrc = m.measSrc := rfl
@[simp] theorem Mod.count_chipAged (m : Mod) (k a f l b n : Nat) : (m.count k a f l b n).chipAged = m.chipAged := rfl
@[simp] theorem Mod.count_hostArb (m : Mod) (k a f l b n : Nat) : (m.count k a f l b n).hostArb = m.hostArb := rfl
@[simp] theorem Mod.count_retired (m : Mod) (k a f l b n : Nat) : (m.count k a f l b n).retired = m.retired := rfl
@[simp] theorem Mod.emit_regs (m : Mod) (o : Output) : (m.emit o).regs = m.regs := rfl
@[simp] theorem Mod.emit_cells (m : Mod) (o : Output) : (m.emit o).cells = m.cells := rfl
@[simp] theorem Mod.emit_fields (m : Mod) (o : Output) : (m.emit o).fields = m.fields := rfl
@[simp] theorem Mod.emit_strat (m : Mod) (o : Output) : (m.emit o).strat = m.strat := rfl
@[simp] theorem Mod.emit_stratBad (m : Mod) (o : Output) : (m.emit o).stratBad = m.stratBad := rfl
@[simp] theorem Mod.emit_stratLatent (m : Mod) (o : Output) : (m.emit o).stratLatent = m.stratLatent := rfl
@[simp] theorem Mod.emit_stratLost (m : Mod) (o : Output) : (m.emit o).stratLost = m.stratLost := rfl
@[simp] theorem Mod.emit_stratOpen (m : Mod) (o : Output) : (m.emit o).stratOpen = m.stratOpen := rfl
@[simp] theorem Mod.emit_stratKnown (m : Mod) (o : Output) : (m.emit o).stratKnown = m.stratKnown := rfl
@[simp] theorem Mod.emit_chans (m : Mod) (o : Output) : (m.emit o).chans = m.chans := rfl
@[simp] theorem Mod.emit_routers (m : Mod) (o : Output) : (m.emit o).routers = m.routers := rfl
@[simp] theorem Mod.emit_slots (m : Mod) (o : Output) : (m.emit o).slots = m.slots := rfl
@[simp] theorem Mod.emit_served (m : Mod) (o : Output) : (m.emit o).served = m.served := rfl
@[simp] theorem Mod.emit_ports (m : Mod) (o : Output) : (m.emit o).ports = m.ports := rfl
@[simp] theorem Mod.emit_flows (m : Mod) (o : Output) : (m.emit o).flows = m.flows := rfl
@[simp] theorem Mod.emit_peers (m : Mod) (o : Output) : (m.emit o).peers = m.peers := rfl
@[simp] theorem Mod.emit_tags (m : Mod) (o : Output) : (m.emit o).tags = m.tags := rfl
@[simp] theorem Mod.emit_tagWait (m : Mod) (o : Output) : (m.emit o).tagWait = m.tagWait := rfl
@[simp] theorem Mod.emit_toHost (m : Mod) (o : Output) : (m.emit o).toHost = m.toHost := rfl
@[simp] theorem Mod.emit_ledAdds (m : Mod) (o : Output) : (m.emit o).ledAdds = m.ledAdds := rfl
@[simp] theorem Mod.emit_rounds (m : Mod) (o : Output) : (m.emit o).rounds = m.rounds := rfl
@[simp] theorem Mod.emit_closed (m : Mod) (o : Output) : (m.emit o).closed = m.closed := rfl
@[simp] theorem Mod.emit_bounces (m : Mod) (o : Output) : (m.emit o).bounces = m.bounces := rfl
@[simp] theorem Mod.emit_quiet (m : Mod) (o : Output) : (m.emit o).quiet = m.quiet := rfl
@[simp] theorem Mod.emit_linked (m : Mod) (o : Output) : (m.emit o).linked = m.linked := rfl
@[simp] theorem Mod.emit_cos (m : Mod) (o : Output) : (m.emit o).cos = m.cos := rfl
@[simp] theorem Mod.emit_plans (m : Mod) (o : Output) : (m.emit o).plans = m.plans := rfl
@[simp] theorem Mod.emit_health (m : Mod) (o : Output) : (m.emit o).health = m.health := rfl
@[simp] theorem Mod.emit_power (m : Mod) (o : Output) : (m.emit o).power = m.power := rfl
@[simp] theorem Mod.emit_wave (m : Mod) (o : Output) : (m.emit o).wave = m.wave := rfl
@[simp] theorem Mod.emit_pEff (m : Mod) (o : Output) : (m.emit o).pEff = m.pEff := rfl
@[simp] theorem Mod.emit_hardHold (m : Mod) (o : Output) : (m.emit o).hardHold = m.hardHold := rfl
@[simp] theorem Mod.emit_snaps (m : Mod) (o : Output) : (m.emit o).snaps = m.snaps := rfl
@[simp] theorem Mod.emit_sels (m : Mod) (o : Output) : (m.emit o).sels = m.sels := rfl
@[simp] theorem Mod.emit_upsSeen (m : Mod) (o : Output) : (m.emit o).upsSeen = m.upsSeen := rfl
@[simp] theorem Mod.emit_merges (m : Mod) (o : Output) : (m.emit o).merges = m.merges := rfl
@[simp] theorem Mod.emit_unsent (m : Mod) (o : Output) : (m.emit o).unsent = m.unsent := rfl
@[simp] theorem Mod.emit_spdm (m : Mod) (o : Output) : (m.emit o).spdm = m.spdm := rfl
@[simp] theorem Mod.emit_minSvn (m : Mod) (o : Output) : (m.emit o).minSvn = m.minSvn := rfl
@[simp] theorem Mod.emit_numVfs (m : Mod) (o : Output) : (m.emit o).numVfs = m.numVfs := rfl
@[simp] theorem Mod.emit_msixAddr (m : Mod) (o : Output) : (m.emit o).msixAddr = m.msixAddr := rfl
@[simp] theorem Mod.emit_msixCtl (m : Mod) (o : Output) : (m.emit o).msixCtl = m.msixCtl := rfl
@[simp] theorem Mod.emit_msixPend (m : Mod) (o : Output) : (m.emit o).msixPend = m.msixPend := rfl
@[simp] theorem Mod.emit_prompter (m : Mod) (o : Output) : (m.emit o).prompter = m.prompter := rfl
@[simp] theorem Mod.emit_nextImage (m : Mod) (o : Output) : (m.emit o).nextImage = m.nextImage := rfl
@[simp] theorem Mod.emit_quick (m : Mod) (o : Output) : (m.emit o).quick = m.quick := rfl
@[simp] theorem Mod.emit_clean (m : Mod) (o : Output) : (m.emit o).clean = m.clean := rfl
@[simp] theorem Mod.emit_dgens (m : Mod) (o : Output) : (m.emit o).dgens = m.dgens := rfl
@[simp] theorem Mod.emit_egens (m : Mod) (o : Output) : (m.emit o).egens = m.egens := rfl
@[simp] theorem Mod.emit_chipWaits (m : Mod) (o : Output) : (m.emit o).chipWaits = m.chipWaits := rfl
@[simp] theorem Mod.emit_chipHeld (m : Mod) (o : Output) : (m.emit o).chipHeld = m.chipHeld := rfl
@[simp] theorem Mod.emit_exitHolds (m : Mod) (o : Output) : (m.emit o).exitHolds = m.exitHolds := rfl
@[simp] theorem Mod.emit_calls (m : Mod) (o : Output) : (m.emit o).calls = m.calls := rfl
@[simp] theorem Mod.emit_probeFails (m : Mod) (o : Output) : (m.emit o).probeFails = m.probeFails := rfl
@[simp] theorem Mod.emit_hostOut (m : Mod) (o : Output) : (m.emit o).hostOut = m.hostOut := rfl
@[simp] theorem Mod.emit_linkDown (m : Mod) (o : Output) : (m.emit o).linkDown = m.linkDown := rfl
@[simp] theorem Mod.emit_edgeUps (m : Mod) (o : Output) : (m.emit o).edgeUps = m.edgeUps := rfl
@[simp] theorem Mod.emit_remModule (m : Mod) (o : Output) : (m.emit o).remModule = m.remModule := rfl
@[simp] theorem Mod.emit_remShared (m : Mod) (o : Output) : (m.emit o).remShared = m.remShared := rfl
@[simp] theorem Mod.emit_ctr (m : Mod) (o : Output) : (m.emit o).ctr = m.ctr := rfl
@[simp] theorem Mod.emit_fresh (m : Mod) (o : Output) : (m.emit o).fresh = m.fresh := rfl
@[simp] theorem Mod.emit_now (m : Mod) (o : Output) : (m.emit o).now = m.now := rfl
@[simp] theorem Mod.emit_ptp (m : Mod) (o : Output) : (m.emit o).ptp = m.ptp := rfl
@[simp] theorem Mod.emit_alert (m : Mod) (o : Output) : (m.emit o).alert = m.alert := rfl
@[simp] theorem Mod.emit_perstLow (m : Mod) (o : Output) : (m.emit o).perstLow = m.perstLow := rfl
@[simp] theorem Mod.emit_late (m : Mod) (o : Output) : (m.emit o).late = m.late := rfl
@[simp] theorem Mod.emit_fuses (m : Mod) (o : Output) : (m.emit o).fuses = m.fuses := rfl
@[simp] theorem Mod.emit_numSet (m : Mod) (o : Output) : (m.emit o).numSet = m.numSet := rfl
@[simp] theorem Mod.emit_refclkOut (m : Mod) (o : Output) : (m.emit o).refclkOut = m.refclkOut := rfl
@[simp] theorem Mod.emit_measSrc (m : Mod) (o : Output) : (m.emit o).measSrc = m.measSrc := rfl
@[simp] theorem Mod.emit_chipAged (m : Mod) (o : Output) : (m.emit o).chipAged = m.chipAged := rfl
@[simp] theorem Mod.emit_hostArb (m : Mod) (o : Output) : (m.emit o).hostArb = m.hostArb := rfl
@[simp] theorem Mod.emit_retired (m : Mod) (o : Output) : (m.emit o).retired = m.retired := rfl
@[simp] theorem Mod.reg_setField (m : Mod) (f : Nat) (x : Field) (p : Nat) : (m.setField f x).reg p = m.reg p := rfl
@[simp] theorem Mod.reg_setCo (m : Mod) (c : Nat) (x : Company) (p : Nat) : (m.setCo c x).reg p = m.reg p := rfl
@[simp] theorem Mod.reg_modCo (m : Mod) (c : Nat) (g : Company → Company) (p : Nat) : (m.modCo c g).reg p = m.reg p := rfl
@[simp] theorem Mod.reg_setCell (m : Mod) (f l : Nat) (x : Cell) (p : Nat) : (m.setCell f l x).reg p = m.reg p := rfl
@[simp] theorem Mod.reg_modCell (m : Mod) (f l : Nat) (g : Cell → Cell) (p : Nat) : (m.modCell f l g).reg p = m.reg p := rfl
@[simp] theorem Mod.reg_count (m : Mod) (k a f l b n : Nat) (p : Nat) : (m.count k a f l b n).reg p = m.reg p := rfl
@[simp] theorem Mod.reg_emit (m : Mod) (o : Output) (p : Nat) : (m.emit o).reg p = m.reg p := rfl
@[simp] theorem Mod.get_setField (m : Mod) (f : Nat) (x : Field) (p : Fld) : (m.setField f x).get p = m.get p := rfl
@[simp] theorem Mod.get_setCo (m : Mod) (c : Nat) (x : Company) (p : Fld) : (m.setCo c x).get p = m.get p := rfl
@[simp] theorem Mod.get_modCo (m : Mod) (c : Nat) (g : Company → Company) (p : Fld) : (m.modCo c g).get p = m.get p := rfl
@[simp] theorem Mod.get_setCell (m : Mod) (f l : Nat) (x : Cell) (p : Fld) : (m.setCell f l x).get p = m.get p := rfl
@[simp] theorem Mod.get_modCell (m : Mod) (f l : Nat) (g : Cell → Cell) (p : Fld) : (m.modCell f l g).get p = m.get p := rfl
@[simp] theorem Mod.get_count (m : Mod) (k a f l b n : Nat) (p : Fld) : (m.count k a f l b n).get p = m.get p := rfl
@[simp] theorem Mod.get_emit (m : Mod) (o : Output) (p : Fld) : (m.emit o).get p = m.get p := rfl
@[simp] theorem Mod.isSet_setField (m : Mod) (f : Nat) (x : Field) (p : Fld) : (m.setField f x).isSet p = m.isSet p := rfl
@[simp] theorem Mod.isSet_setCo (m : Mod) (c : Nat) (x : Company) (p : Fld) : (m.setCo c x).isSet p = m.isSet p := rfl
@[simp] theorem Mod.isSet_modCo (m : Mod) (c : Nat) (g : Company → Company) (p : Fld) : (m.modCo c g).isSet p = m.isSet p := rfl
@[simp] theorem Mod.isSet_setCell (m : Mod) (f l : Nat) (x : Cell) (p : Fld) : (m.setCell f l x).isSet p = m.isSet p := rfl
@[simp] theorem Mod.isSet_modCell (m : Mod) (f l : Nat) (g : Cell → Cell) (p : Fld) : (m.modCell f l g).isSet p = m.isSet p := rfl
@[simp] theorem Mod.isSet_count (m : Mod) (k a f l b n : Nat) (p : Fld) : (m.count k a f l b n).isSet p = m.isSet p := rfl
@[simp] theorem Mod.isSet_emit (m : Mod) (o : Output) (p : Fld) : (m.emit o).isSet p = m.isSet p := rfl
@[simp] theorem Mod.present_setField (m : Mod) (f : Nat) (x : Field) (p : Nat) : (m.setField f x).present p = m.present p := rfl
@[simp] theorem Mod.present_setCo (m : Mod) (c : Nat) (x : Company) (p : Nat) : (m.setCo c x).present p = m.present p := rfl
@[simp] theorem Mod.present_modCo (m : Mod) (c : Nat) (g : Company → Company) (p : Nat) : (m.modCo c g).present p = m.present p := rfl
@[simp] theorem Mod.present_setCell (m : Mod) (f l : Nat) (x : Cell) (p : Nat) : (m.setCell f l x).present p = m.present p := rfl
@[simp] theorem Mod.present_modCell (m : Mod) (f l : Nat) (g : Cell → Cell) (p : Nat) : (m.modCell f l g).present p = m.present p := rfl
@[simp] theorem Mod.present_count (m : Mod) (k a f l b n : Nat) (p : Nat) : (m.count k a f l b n).present p = m.present p := rfl
@[simp] theorem Mod.present_emit (m : Mod) (o : Output) (p : Nat) : (m.emit o).present p = m.present p := rfl
@[simp] theorem Mod.portFitted_setField (m : Mod) (f : Nat) (x : Field) (p : Nat) : (m.setField f x).portFitted p = m.portFitted p := rfl
@[simp] theorem Mod.portFitted_setCo (m : Mod) (c : Nat) (x : Company) (p : Nat) : (m.setCo c x).portFitted p = m.portFitted p := rfl
@[simp] theorem Mod.portFitted_modCo (m : Mod) (c : Nat) (g : Company → Company) (p : Nat) : (m.modCo c g).portFitted p = m.portFitted p := rfl
@[simp] theorem Mod.portFitted_setCell (m : Mod) (f l : Nat) (x : Cell) (p : Nat) : (m.setCell f l x).portFitted p = m.portFitted p := rfl
@[simp] theorem Mod.portFitted_modCell (m : Mod) (f l : Nat) (g : Cell → Cell) (p : Nat) : (m.modCell f l g).portFitted p = m.portFitted p := rfl
@[simp] theorem Mod.portFitted_count (m : Mod) (k a f l b n : Nat) (p : Nat) : (m.count k a f l b n).portFitted p = m.portFitted p := rfl
@[simp] theorem Mod.portFitted_emit (m : Mod) (o : Output) (p : Nat) : (m.emit o).portFitted p = m.portFitted p := rfl
@[simp] theorem Mod.fieldOn_setField (m : Mod) (f : Nat) (x : Field) (p : Nat) : (m.setField f x).fieldOn p = m.fieldOn p := rfl
@[simp] theorem Mod.fieldOn_setCo (m : Mod) (c : Nat) (x : Company) (p : Nat) : (m.setCo c x).fieldOn p = m.fieldOn p := rfl
@[simp] theorem Mod.fieldOn_modCo (m : Mod) (c : Nat) (g : Company → Company) (p : Nat) : (m.modCo c g).fieldOn p = m.fieldOn p := rfl
@[simp] theorem Mod.fieldOn_setCell (m : Mod) (f l : Nat) (x : Cell) (p : Nat) : (m.setCell f l x).fieldOn p = m.fieldOn p := rfl
@[simp] theorem Mod.fieldOn_modCell (m : Mod) (f l : Nat) (g : Cell → Cell) (p : Nat) : (m.modCell f l g).fieldOn p = m.fieldOn p := rfl
@[simp] theorem Mod.fieldOn_count (m : Mod) (k a f l b n : Nat) (p : Nat) : (m.count k a f l b n).fieldOn p = m.fieldOn p := rfl
@[simp] theorem Mod.fieldOn_emit (m : Mod) (o : Output) (p : Nat) : (m.emit o).fieldOn p = m.fieldOn p := rfl
@[simp] theorem Mod.coOf_setField (m : Mod) (f : Nat) (x : Field) (p : Nat) : (m.setField f x).coOf p = m.coOf p := rfl
@[simp] theorem Mod.coOf_setCo (m : Mod) (c : Nat) (x : Company) (p : Nat) : (m.setCo c x).coOf p = m.coOf p := rfl
@[simp] theorem Mod.coOf_modCo (m : Mod) (c : Nat) (g : Company → Company) (p : Nat) : (m.modCo c g).coOf p = m.coOf p := rfl
@[simp] theorem Mod.coOf_setCell (m : Mod) (f l : Nat) (x : Cell) (p : Nat) : (m.setCell f l x).coOf p = m.coOf p := rfl
@[simp] theorem Mod.coOf_modCell (m : Mod) (f l : Nat) (g : Cell → Cell) (p : Nat) : (m.modCell f l g).coOf p = m.coOf p := rfl
@[simp] theorem Mod.coOf_count (m : Mod) (k a f l b n : Nat) (p : Nat) : (m.count k a f l b n).coOf p = m.coOf p := rfl
@[simp] theorem Mod.coOf_emit (m : Mod) (o : Output) (p : Nat) : (m.emit o).coOf p = m.coOf p := rfl
@[simp] theorem Mod.coFields_setField (m : Mod) (f : Nat) (x : Field) (p : Nat) : (m.setField f x).coFields p = m.coFields p := rfl
@[simp] theorem Mod.coFields_setCo (m : Mod) (c : Nat) (x : Company) (p : Nat) : (m.setCo c x).coFields p = m.coFields p := rfl
@[simp] theorem Mod.coFields_modCo (m : Mod) (c : Nat) (g : Company → Company) (p : Nat) : (m.modCo c g).coFields p = m.coFields p := rfl
@[simp] theorem Mod.coFields_setCell (m : Mod) (f l : Nat) (x : Cell) (p : Nat) : (m.setCell f l x).coFields p = m.coFields p := rfl
@[simp] theorem Mod.coFields_modCell (m : Mod) (f l : Nat) (g : Cell → Cell) (p : Nat) : (m.modCell f l g).coFields p = m.coFields p := rfl
@[simp] theorem Mod.coFields_count (m : Mod) (k a f l b n : Nat) (p : Nat) : (m.count k a f l b n).coFields p = m.coFields p := rfl
@[simp] theorem Mod.coFields_emit (m : Mod) (o : Output) (p : Nat) : (m.emit o).coFields p = m.coFields p := rfl
@[simp] theorem Mod.coState_setField (m : Mod) (f : Nat) (x : Field) (p : Nat) : (m.setField f x).coState p = m.coState p := rfl
@[simp] theorem Mod.coState_setCo (m : Mod) (c : Nat) (x : Company) (p : Nat) : (m.setCo c x).coState p = m.coState p := rfl
@[simp] theorem Mod.coState_modCo (m : Mod) (c : Nat) (g : Company → Company) (p : Nat) : (m.modCo c g).coState p = m.coState p := rfl
@[simp] theorem Mod.coState_setCell (m : Mod) (f l : Nat) (x : Cell) (p : Nat) : (m.setCell f l x).coState p = m.coState p := rfl
@[simp] theorem Mod.coState_modCell (m : Mod) (f l : Nat) (g : Cell → Cell) (p : Nat) : (m.modCell f l g).coState p = m.coState p := rfl
@[simp] theorem Mod.coState_count (m : Mod) (k a f l b n : Nat) (p : Nat) : (m.count k a f l b n).coState p = m.coState p := rfl
@[simp] theorem Mod.coState_emit (m : Mod) (o : Output) (p : Nat) : (m.emit o).coState p = m.coState p := rfl
@[simp] theorem Mod.cellOk_setField (m : Mod) (f : Nat) (x : Field) (p q : Nat) : (m.setField f x).cellOk p q = m.cellOk p q := rfl
@[simp] theorem Mod.cellOk_setCo (m : Mod) (c : Nat) (x : Company) (p q : Nat) : (m.setCo c x).cellOk p q = m.cellOk p q := rfl
@[simp] theorem Mod.cellOk_modCo (m : Mod) (c : Nat) (g : Company → Company) (p q : Nat) : (m.modCo c g).cellOk p q = m.cellOk p q := rfl
@[simp] theorem Mod.cellOk_setCell (m : Mod) (f l : Nat) (x : Cell) (p q : Nat) : (m.setCell f l x).cellOk p q = m.cellOk p q := rfl
@[simp] theorem Mod.cellOk_modCell (m : Mod) (f l : Nat) (g : Cell → Cell) (p q : Nat) : (m.modCell f l g).cellOk p q = m.cellOk p q := rfl
@[simp] theorem Mod.cellOk_count (m : Mod) (k a f l b n : Nat) (p q : Nat) : (m.count k a f l b n).cellOk p q = m.cellOk p q := rfl
@[simp] theorem Mod.cellOk_emit (m : Mod) (o : Output) (p q : Nat) : (m.emit o).cellOk p q = m.cellOk p q := rfl
@[simp] theorem Mod.place_setField (m : Mod) (f : Nat) (x : Field) (p q : Nat) : (m.setField f x).place p q = m.place p q := rfl
@[simp] theorem Mod.place_setCo (m : Mod) (c : Nat) (x : Company) (p q : Nat) : (m.setCo c x).place p q = m.place p q := rfl
@[simp] theorem Mod.place_modCo (m : Mod) (c : Nat) (g : Company → Company) (p q : Nat) : (m.modCo c g).place p q = m.place p q := rfl
@[simp] theorem Mod.place_setCell (m : Mod) (f l : Nat) (x : Cell) (p q : Nat) : (m.setCell f l x).place p q = m.place p q := rfl
@[simp] theorem Mod.place_modCell (m : Mod) (f l : Nat) (g : Cell → Cell) (p q : Nat) : (m.modCell f l g).place p q = m.place p q := rfl
@[simp] theorem Mod.place_count (m : Mod) (k a f l b n : Nat) (p q : Nat) : (m.count k a f l b n).place p q = m.place p q := rfl
@[simp] theorem Mod.place_emit (m : Mod) (o : Output) (p q : Nat) : (m.emit o).place p q = m.place p q := rfl
@[simp] theorem Mod.field_setReg (m : Mod) (o : Nat) (v : Word) (p : Nat) : (m.setReg o v).field p = m.field p := rfl
@[simp] theorem Mod.field_put (m : Mod) (f : Fld) (v : Nat) (p : Nat) : (m.put f v).field p = m.field p := rfl
@[simp] theorem Mod.field_addSat (m : Mod) (f : Fld) (n : Nat) (p : Nat) : (m.addSat f n).field p = m.field p := rfl
@[simp] theorem Mod.field_setCo (m : Mod) (c : Nat) (x : Company) (p : Nat) : (m.setCo c x).field p = m.field p := rfl
@[simp] theorem Mod.field_modCo (m : Mod) (c : Nat) (g : Company → Company) (p : Nat) : (m.modCo c g).field p = m.field p := rfl
@[simp] theorem Mod.field_setCell (m : Mod) (f l : Nat) (x : Cell) (p : Nat) : (m.setCell f l x).field p = m.field p := rfl
@[simp] theorem Mod.field_modCell (m : Mod) (f l : Nat) (g : Cell → Cell) (p : Nat) : (m.modCell f l g).field p = m.field p := rfl
@[simp] theorem Mod.field_count (m : Mod) (k a f l b n : Nat) (p : Nat) : (m.count k a f l b n).field p = m.field p := rfl
@[simp] theorem Mod.field_emit (m : Mod) (o : Output) (p : Nat) : (m.emit o).field p = m.field p := rfl
@[simp] theorem Mod.co_setReg (m : Mod) (o : Nat) (v : Word) (p : Nat) : (m.setReg o v).co p = m.co p := rfl
@[simp] theorem Mod.co_put (m : Mod) (f : Fld) (v : Nat) (p : Nat) : (m.put f v).co p = m.co p := rfl
@[simp] theorem Mod.co_addSat (m : Mod) (f : Fld) (n : Nat) (p : Nat) : (m.addSat f n).co p = m.co p := rfl
@[simp] theorem Mod.co_setField (m : Mod) (f : Nat) (x : Field) (p : Nat) : (m.setField f x).co p = m.co p := rfl
@[simp] theorem Mod.co_setCell (m : Mod) (f l : Nat) (x : Cell) (p : Nat) : (m.setCell f l x).co p = m.co p := rfl
@[simp] theorem Mod.co_modCell (m : Mod) (f l : Nat) (g : Cell → Cell) (p : Nat) : (m.modCell f l g).co p = m.co p := rfl
@[simp] theorem Mod.co_count (m : Mod) (k a f l b n : Nat) (p : Nat) : (m.count k a f l b n).co p = m.co p := rfl
@[simp] theorem Mod.co_emit (m : Mod) (o : Output) (p : Nat) : (m.emit o).co p = m.co p := rfl
@[simp] theorem Mod.cell_setField (m : Mod) (f : Nat) (x : Field) (p q : Nat) : (m.setField f x).cell p q = m.cell p q := rfl
@[simp] theorem Mod.cell_setCo (m : Mod) (c : Nat) (x : Company) (p q : Nat) : (m.setCo c x).cell p q = m.cell p q := rfl
@[simp] theorem Mod.cell_modCo (m : Mod) (c : Nat) (g : Company → Company) (p q : Nat) : (m.modCo c g).cell p q = m.cell p q := rfl
@[simp] theorem Mod.cell_count (m : Mod) (k a f l b n : Nat) (p q : Nat) : (m.count k a f l b n).cell p q = m.cell p q := rfl
@[simp] theorem Mod.cell_emit (m : Mod) (o : Output) (p q : Nat) : (m.emit o).cell p q = m.cell p q := rfl

end Sys2Proof.Machine
end

