-- ==== Sys2Proof/Laws/Access.lean ====
section
/-! SUPPORT. Rings, channels, ports and flows read after they are written, and lists over fields. -/

namespace Sys2Proof.Machine

@[simp] theorem Mod.co_modCo_same (m : Mod) (c : Nat) (f : Company → Company) : (m.modCo c f).co c = f (m.co c) := by
  unfold Mod.modCo; exact mget_mset_same _ _ _ _

theorem Mod.co_modCo_ne (m : Mod) {c d : Nat} (f : Company → Company) (h : d ≠ c) : (m.modCo c f).co d = m.co d := by
  unfold Mod.modCo; exact mget_mset_ne _ _ _ _ h

@[simp] theorem Mod.ring_setRing_same (m : Mod) (c r : Nat) (x : CmdRing) : (m.setRing c r x).ring c r = x := by
  unfold Mod.setRing Mod.ring; rw [Mod.co_modCo_same]; exact mget_mset_same _ _ _ _

theorem Mod.ring_setRing_ne (m : Mod) {c r d k : Nat} (x : CmdRing) (h : d ≠ c ∨ k ≠ r) : (m.setRing c r x).ring d k = m.ring d k := by
  unfold Mod.setRing Mod.ring
  by_cases hd : d = c
  · subst hd; rw [Mod.co_modCo_same]; exact mget_mset_ne _ _ _ _ (h.resolve_left (by simp))
  · rw [Mod.co_modCo_ne _ _ hd]

@[simp] theorem Mod.cpl_setCpl_same (m : Mod) (c r : Nat) (x : CplRing) : (m.setCpl c r x).cpl c r = x := by
  unfold Mod.setCpl Mod.cpl; rw [Mod.co_modCo_same]; exact mget_mset_same _ _ _ _

theorem Mod.cpl_setCpl_ne (m : Mod) {c r d k : Nat} (x : CplRing) (h : d ≠ c ∨ k ≠ r) : (m.setCpl c r x).cpl d k = m.cpl d k := by
  unfold Mod.setCpl Mod.cpl
  by_cases hd : d = c
  · subst hd; rw [Mod.co_modCo_same]; exact mget_mset_ne _ _ _ _ (h.resolve_left (by simp))
  · rw [Mod.co_modCo_ne _ _ hd]

@[simp] theorem Mod.regs_setRing (m : Mod) (c r : Nat) (x : CmdRing) : (m.setRing c r x).regs = m.regs := rfl
@[simp] theorem Mod.regs_setCpl (m : Mod) (c r : Nat) (x : CplRing) : (m.setCpl c r x).regs = m.regs := rfl
@[simp] theorem Mod.get_setRing (m : Mod) (c r : Nat) (x : CmdRing) (f : Fld) : (m.setRing c r x).get f = m.get f := rfl
@[simp] theorem Mod.get_setCpl (m : Mod) (c r : Nat) (x : CplRing) (f : Fld) : (m.setCpl c r x).get f = m.get f := rfl

@[simp] theorem Mod.chan_setChan_same (m : Mod) (f ch : Nat) (x : Chan) : (m.setChan f ch x).chan f ch = x := mget_mset_same _ _ _ _
@[simp] theorem Mod.get_setChan (m : Mod) (f ch : Nat) (x : Chan) (g : Fld) : (m.setChan f ch x).get g = m.get g := rfl
@[simp] theorem Mod.oport_setOport_same (m : Mod) (p : Nat) (x : Port) : (m.setOport p x).oport p = x := mget_mset_same _ _ _ _
theorem Mod.oport_setOport_ne (m : Mod) {p q : Nat} (x : Port) (h : q ≠ p) : (m.setOport p x).oport q = m.oport q := mget_mset_ne _ _ _ _ h
@[simp] theorem Mod.get_setOport (m : Mod) (p : Nat) (x : Port) (g : Fld) : (m.setOport p x).get g = m.get g := rfl
@[simp] theorem Mod.flow_setFlow_same (m : Mod) (d tc : Nat) (x : Flow) : (m.setFlow d tc x).flow d tc = x := mget_mset_same _ _ _ _
@[simp] theorem Mod.get_setFlow (m : Mod) (d tc : Nat) (x : Flow) (g : Fld) : (m.setFlow d tc x).get g = m.get g := rfl

/-! Things done to each of a list. -/

@[simp] theorem Mod.each_nil {α : Type} (m : Mod) (f : Mod → α → Mod) : m.each [] f = m := rfl
@[simp] theorem Mod.each_cons {α : Type} (m : Mod) (a : α) (l : List α) (f : Mod → α → Mod) : m.each (a :: l) f = (f m a).each l f := rfl

/-- What each step keeps, doing it to every member of a list keeps. -/
theorem Mod.each_keeps {α : Type} (P : Mod → Prop) (f : Mod → α → Mod) (l : List α) (h : ∀ m a, a ∈ l → P m → P (f m a)) (m : Mod)
    (hm : P m) : P (m.each l f) := by
  induction l generalizing m with
  | nil => exact hm
  | cons a l ih => exact ih (fun m b hb => h m b (List.mem_cons_of_mem _ hb)) _ (h m a (List.mem_cons_self ..) hm)

end Sys2Proof.Machine
end

