-- ==== Sys2Proof/Laws/Cells.lean ====
section
/-! SUPPORT. What a command at a module, a field, a port or a cell can do, and what one instruction of a scalar or a vector core can
do: each shared operation once. -/

namespace Sys2Proof.Machine

/-! Commands at the module, a field, a port. -/

@[simp] theorem onMod_eq (s : State) (f : Mod → Mod) : onMod s f = .next { s with m := f s.m } := rfl

theorem onField_present (s : State) (f : Nat) (g : Mod → Mod) (h : s.m.present f = true) :
    onField s f g = .next { s with m := g s.m } := by simp [onField, h]

theorem onField_absent (s : State) (f : Nat) (g : Mod → Mod) (h : s.m.present f = false) : onField s f g = .next s := by
  simp [onField, h]

theorem onField_cases (s : State) (f : Nat) (g : Mod → Mod) :
    (s.m.present f = true ∧ onField s f g = .next { s with m := g s.m }) ∨
      (s.m.present f = false ∧ onField s f g = .next s) := by
  cases h : s.m.present f
  · exact .inr ⟨rfl, onField_absent s f g h⟩
  · exact .inl ⟨rfl, onField_present s f g h⟩

theorem onPort_fitted (s : State) (p : Nat) (g : Mod → Mod) (h : s.m.portFitted p = true) :
    onPort s p g = .next { s with m := g s.m } := by simp [onPort, h]

theorem onPort_absent (s : State) (p : Nat) (g : Mod → Mod) (h : s.m.portFitted p = false) : onPort s p g = .next s := by
  simp [onPort, h]

/-! Steps of a cell. -/

theorem present_of_cellRuns (m : Mod) (f l : Nat) (h : m.cellRuns f l = true) : m.present f = true := by
  unfold Mod.cellRuns Mod.cellOk at h
  simp only [Bool.and_eq_true] at h
  exact h.2.1.1

theorem onScalar_goes (s : State) (c : CellRef) (op : Nat) (g : Env → Cell → Cell) (h : CellGoes s c) :
    onScalar s c op g = .next { s with m := s.m.runCell c.field c.lcell (opScalar op) (g (envOf s c)) } := by
  have hp := present_of_cellRuns _ _ _ h.1
  unfold onScalar onField onMod
  simp [hp, h.1, h.2, envOf]

/-- A core whose engines do not run, or whose job is held, does nothing. -/
theorem onScalar_idle (s : State) (c : CellRef) (op : Nat) (g : Env → Cell → Cell)
    (h : ¬CellGoes s c) : onScalar s c op g = .next s := by
  unfold onScalar onField onMod
  have : (s.m.cellRuns c.field c.lcell && !s.m.coHeld (s.m.coOf c.field)) = false := by
    rw [Bool.eq_false_iff]
    intro e
    simp only [Bool.and_eq_true, Bool.not_eq_true'] at e
    exact h ⟨e.1, e.2⟩
  simp [this]

theorem onMatrix_goes (s : State) (c : CellRef) (opn : Nat) (g : Cell → Cell) (h : CellGoes s c) :
    onMatrix s c opn g = .next { s with m := s.m.runCell c.field c.lcell opn g } := by
  have hp := present_of_cellRuns _ _ _ h.1
  unfold onMatrix onField onMod
  simp [hp, h.1, h.2]

theorem onCell_runs (s : State) (c : CellRef) (opn : Nat) (g : Env → Cell → Cell) (h : s.m.cellRuns c.field c.lcell = true) :
    onCell s c opn g = .next { s with m := s.m.runCell c.field c.lcell opn (g (envOf s c)) } := by
  have hp := present_of_cellRuns _ _ _ h
  unfold onCell onField onMod
  simp [hp, h, envOf]

theorem onCell_idle (s : State) (c : CellRef) (opn : Nat) (g : Env → Cell → Cell)
    (h : s.m.cellRuns c.field c.lcell = false) : onCell s c opn g = .next s := by
  unfold onCell onField onMod
  simp [h]

/-- A step that ends nothing a scene change waits for changes the cell and tells what it tells. -/
theorem runCell_told (s : State) (c : CellRef) (opn : Nat) (g : Cell → Cell)
    (hs : sceneState (g (cellOf s c)) = sceneState (cellOf s c)) :
    ({ s with m := s.m.runCell c.field c.lcell opn g } : State) = told s c opn (g (cellOf s c)) := by
  unfold Mod.runCell
  have : sceneState (g { s.m.cell c.field c.lcell with notes := [] }) =
      sceneState { s.m.cell c.field c.lcell with notes := [] } := hs
  simp only [this, if_true]
  rfl

/-- Telling nothing changes the cell alone. -/
theorem told_silent (s : State) (c : CellRef) (opn : Nat) (k : Cell) (h : k.notes = []) : told s c opn k = withCell s c k := by
  cases k; simp only at h; subst h; rfl

/-- What is told comes in order. -/
theorem told_note (s : State) (c : CellRef) (opn : Nat) (k : Cell) (n : Note) :
    told s c opn (k.note n) = { s with m := Mod.noteOne c.field c.lcell opn (told s c opn k).m n } := by
  unfold told Cell.note Mod.each
  simp only [List.foldl_append, List.foldl_cons, List.foldl_nil]

/-- A count told last. -/
theorem told_count (s : State) (c : CellRef) (opn : Nat) (k : Cell) (kind code : Nat) :
    told s c opn (k.note (.count kind code 0 1)) = counted (told s c opn k) c kind code := by
  rw [told_note]; rfl

/-! The scalar core. -/

/-- Everything one instruction of the scalar core can do. -/
theorem scalarStep_cases (op cls : Nat) (regs : List Nat) (bad : Bool) (body : Cell → SRes) (c : Cell) :
    (scalarReady c.sc op = false ∧ scalarStep op cls regs bad body c = c) ∨
    (scalarReady c.sc op = true ∧ 0x30000 ≤ c.sc.pc ∧ fullHeld c.sc = true ∧ scalarStep op cls regs bad body c = scalarWait c op) ∨
    (scalarReady c.sc op = true ∧ 0x30000 ≤ c.sc.pc ∧ fullHeld c.sc = false ∧
      scalarStep op cls regs bad body c = scalarFault c 2 c.sc.pc) ∨
    (scalarReady c.sc op = true ∧ c.sc.pc < 0x30000 ∧ scalarHeld c.sc cls regs = true ∧
      scalarStep op cls regs bad body c = scalarWait c op) ∨
    (scalarReady c.sc op = true ∧ c.sc.pc < 0x30000 ∧ scalarHeld c.sc cls regs = false ∧ bad = true ∧
      scalarStep op cls regs bad body c = scalarFault c 1 c.sc.pc) ∨
    (scalarReady c.sc op = true ∧ c.sc.pc < 0x30000 ∧ scalarHeld c.sc cls regs = false ∧ bad = false ∧
      scalarStep op cls regs bad body c = scalarEnd op c.sc.pc (body c)) := by
  unfold scalarStep
  cases h1 : scalarReady c.sc op
  · simp
  · by_cases h2 : 0x30000 ≤ c.sc.pc
    · cases h4 : fullHeld c.sc <;> simp [h2]
    · have h2' : c.sc.pc < 0x30000 := by omega
      cases h3 : scalarHeld c.sc cls regs
      · cases bad <;> simp [h2']
      · simp [h2']

theorem scalarStep_may (s : State) (c : CellRef) (op cls : Nat) (regs : List Nat) (body : Cell → SRes) (h : ScalarMay s c op cls regs) :
    scalarStep op cls regs false body (cellOf s c) = scalarEnd op (cellOf s c).sc.pc (body (cellOf s c)) := by
  obtain ⟨_, h1, h2, h3⟩ := h
  unfold scalarStep
  simp [h1, h2, h3]

theorem scalarStep_bad (s : State) (c : CellRef) (op cls : Nat) (regs : List Nat) (body : Cell → SRes) (h : ScalarMay s c op cls regs) :
    scalarStep op cls regs true body (cellOf s c) = scalarFault (cellOf s c) 1 (cellOf s c).sc.pc := by
  obtain ⟨_, h1, h2, h3⟩ := h
  unfold scalarStep
  simp [h1, h2, h3]

theorem scalarStep_past (s : State) (c : CellRef) (op cls : Nat) (regs : List Nat) (bad : Bool) (body : Cell → SRes)
    (h1 : scalarReady (cellOf s c).sc op = true) (h2 : 0x30000 ≤ (cellOf s c).sc.pc) (h3 : fullHeld (cellOf s c).sc = false) :
    scalarStep op cls regs bad body (cellOf s c) = scalarFault (cellOf s c) 2 (cellOf s c).sc.pc := by
  unfold scalarStep
  simp [h1, h2, h3]

/-- Where nothing is told, `ranTells` is `ran`. -/
theorem ranTells_silent (s : State) (c : CellRef) (op pc : Nat) (k : Cell) (h : k.notes = []) : ranTells s c op pc k = ran s c pc k := by
  exact congrArg (fun t => counted t c 3 1)
    (told_silent s c _ { k with sc := { k.sc with run := .running, asleep := 0, pc := pc } } h)

/-- The running state of a core is nothing that a scene change waits for. -/
theorem sceneState_run (k : Cell) (r : ScalarRun) (a p : Nat) (n : List Note) :
    sceneState { k with sc := { k.sc with run := r, asleep := a, pc := p }, notes := n } = sceneState k := rfl

theorem onScalar_told (s : State) (c : CellRef) (op : Nat) (g : Env → Cell → Cell) (h : CellGoes s c)
    (hs : sceneState (g (envOf s c) (cellOf s c)) = sceneState (cellOf s c)) :
    onScalar s c op g = .next (told s c (opScalar op) (g (envOf s c) (cellOf s c))) := by
  rw [onScalar_goes s c op g h, runCell_told s c _ _ hs]

/-- A good scalar instruction that may issue and completes: its cell, and what it tells. -/
theorem scalar_tells (s : State) (c : CellRef) (op o2 cls : Nat) (regs : List Nat) (bad : Bool) (body : Cell → SRes)
    (g : Env → Cell → Cell) (hg : g (envOf s c) = scalarStep op cls regs bad body) (hb : bad = false) (k : Cell)
    (h : ScalarMay s c op cls regs) (hk : body (cellOf s c) = .done k)
    (hs : sceneState k = sceneState (cellOf s c)) : onScalar s c o2 g = .next (ranTells s c o2 (nextPc s c) k) := by
  subst hb
  have e : g (envOf s c) (cellOf s c) = scalarRetire k (nextPc s c) := by
    rw [hg, scalarStep_may s c op cls regs body h, hk]; rfl
  rw [onScalar_told s c o2 g h.1 (by rw [e]; exact hs), e]
  rw [show scalarRetire k (nextPc s c) =
    ({ k with sc := { k.sc with run := .running, asleep := 0, pc := nextPc s c } } : Cell).note (.count 3 1 0 1) from rfl, told_count]
  rfl

/-- The same where nothing is told. -/
theorem scalar_done (s : State) (c : CellRef) (op o2 cls : Nat) (regs : List Nat) (bad : Bool) (body : Cell → SRes)
    (g : Env → Cell → Cell) (hg : g (envOf s c) = scalarStep op cls regs bad body) (hb : bad = false) (k : Cell)
    (h : ScalarMay s c op cls regs) (hk : body (cellOf s c) = .done k) (hkn : k.notes = [])
    (hs : sceneState k = sceneState (cellOf s c)) : onScalar s c o2 g = .next (ran s c (nextPc s c) k) := by
  rw [scalar_tells s c op o2 cls regs bad body g hg hb k h hk hs, ranTells_silent _ _ _ _ _ hkn]

@[simp] theorem xset_acked (s : Scalar) (n : Nat) (v : Word) : (xset s n v).acked = s.acked := by unfold xset; split <;> simp
@[simp] theorem xset_ended (s : Scalar) (n : Nat) (v : Word) : (xset s n v).ended = s.ended := by unfold xset; split <;> simp

/-- Writing a register ends nothing that a scene change waits for. -/
theorem sceneState_setX (s : State) (c : CellRef) (r : BitVec 5) (v : Word) : sceneState (setX s c r v) = sceneState (cellOf s c) := by
  unfold sceneState setX acknowledged cellDrained
  simp [Cell.mat]

@[simp] theorem xget_zero (s : Scalar) : xget s 0 = 0 := by simp [xget]

theorem xget_xset (s : Scalar) (n k : Nat) (v : Word) : xget (xset s n v) k = if k = n ∧ n ≠ 0 then v else xget s k := by
  unfold xget xset
  by_cases h : n = 0
  · simp [h]
  · by_cases hk : k = n
    · subst hk; simp [h]
    · by_cases h0 : k = 0
      · simp [h0, h, Ne.symm h]
      · simp only [h, hk, h0, if_false, false_and]
        exact mget_mset_ne 0 0 s.x v hk

/-- A good scalar instruction that may issue and sets the PC. -/
theorem scalar_jump (s : State) (c : CellRef) (op o2 cls : Nat) (regs : List Nat) (bad : Bool) (body : Cell → SRes)
    (g : Env → Cell → Cell) (hg : g (envOf s c) = scalarStep op cls regs bad body) (hb : bad = false) (k : Cell) (pc : Nat)
    (h : ScalarMay s c op cls regs) (hk : body (cellOf s c) = .jump k pc) (hkn : k.notes = [])
    (hs : sceneState k = sceneState (cellOf s c)) : onScalar s c o2 g = .next (ran s c pc k) := by
  subst hb
  have e : g (envOf s c) (cellOf s c) = scalarRetire k pc := by
    rw [hg, scalarStep_may s c op cls regs body h, hk]; rfl
  rw [onScalar_told s c o2 g h.1 (by rw [e]; exact hs), e]
  rw [show scalarRetire k pc =
    ({ k with sc := { k.sc with run := .running, asleep := 0, pc := pc } } : Cell).note (.count 3 1 0 1) from rfl, told_count]
  exact congrArg Host.Outcome.next (ranTells_silent s c o2 pc k hkn)

/-- A good scalar instruction that may issue and waits. -/
theorem scalar_wait (s : State) (c : CellRef) (op o2 cls : Nat) (regs : List Nat) (bad : Bool) (body : Cell → SRes)
    (g : Env → Cell → Cell) (hg : g (envOf s c) = scalarStep op cls regs bad body) (hb : bad = false) (k : Cell)
    (h : ScalarMay s c op cls regs) (hk : body (cellOf s c) = .wait k) (hkn : k.notes = [])
    (hs : sceneState k = sceneState (cellOf s c)) : onScalar s c o2 g = .next (waitsIn s c op k) := by
  subst hb
  have e : g (envOf s c) (cellOf s c) = scalarWait k op := by
    rw [hg, scalarStep_may s c op cls regs body h, hk]; rfl
  rw [onScalar_told s c o2 g h.1 (by rw [e]; exact hs), e]
  exact congrArg Host.Outcome.next (told_silent s c _ (scalarWait k op) hkn)

/-- A scalar instruction that faults as it issues. -/
theorem scalar_faults (s : State) (c : CellRef) (o2 : Nat) (code : Nat)
    (g : Env → Cell → Cell) (h : CellGoes s c) (hg : g (envOf s c) (cellOf s c) = scalarFault (cellOf s c) code (cellOf s c).sc.pc) :
    onScalar s c o2 g = .next (faulted s c code) := by
  rw [onScalar_told s c o2 g h (by rw [hg]; rfl), hg]
  rfl

/-- A write changes memory and its marks alone. -/
theorem onlyMemory_write (c : Cell) (u o : Nat) (bs : List Byte) : OnlyMemory c (c.write u o bs) := rfl

theorem onlyMemory_refl (c : Cell) : OnlyMemory c c := rfl
theorem onlyMemory_trans {a b c : Cell} (h : OnlyMemory a b) (g : OnlyMemory b c) : OnlyMemory a c := by
  unfold OnlyMemory at *
  rw [g, h]

/-- Writes of bytes change memory and its marks alone. -/
theorem onlyMemory_maskWrite (c : Cell) (u o : Nat) (bs : List Byte) (m : Nat) : OnlyMemory c (maskWrite c u o bs m) := by
  induction bs generalizing c o m with
  | nil => exact onlyMemory_refl _
  | cons b bs ih =>
    simp only [maskWrite]
    refine onlyMemory_trans ?_ (ih ..)
    split
    · exact onlyMemory_write ..
    · exact onlyMemory_refl _

theorem onlyMemory_wordMaskWrite (c : Cell) (u o : Nat) (d : List Byte) (m n : Nat) : OnlyMemory c (wordMaskWrite c u o d m n) := by
  induction n generalizing c o d m with
  | zero => exact onlyMemory_refl _
  | succ n ih =>
    simp only [wordMaskWrite]
    refine onlyMemory_trans ?_ (ih ..)
    split
    · exact onlyMemory_write ..
    · exact onlyMemory_maskWrite ..

theorem onlyMemory_touch (c : Cell) (u r n : Nat) : OnlyMemory c (c.touch u r n) := rfl

theorem onlyMemory_crossing (c : Cell) (d : Bool) : OnlyMemory c (c.crossing d).1 := by
  unfold Cell.crossing
  split
  · exact onlyMemory_refl _
  · split <;> exact rfl

theorem onlyMemory_mark (c : Cell) (u o : Nat) (ws : List Nat) : OnlyMemory c (c.mark u o ws) := rfl

theorem onlyMemory_maskRow (c : Cell) (u r : Nat) (d : List Byte) (m : Nat) : OnlyMemory c (c.maskRow u r d m) := by
  unfold Cell.maskRow
  refine onlyMemory_trans ?_ (onlyMemory_wordMaskWrite ..)
  split
  · exact onlyMemory_touch ..
  · exact onlyMemory_refl _

theorem onlyMemory_entryEcc (c : Cell) (e : GatherEntry) : OnlyMemory c (c.entryEcc e) := by
  unfold Cell.entryEcc
  split <;> exact rfl

theorem onlyMemory_flushEntry (c : Cell) (d : Bool) (e : GatherEntry) : OnlyMemory c (c.flushEntry d e) := by
  unfold Cell.flushEntry
  have h := onlyMemory_trans (onlyMemory_trans (onlyMemory_entryEcc c e) (onlyMemory_crossing _ d))
    (onlyMemory_maskRow _ e.unit e.row e.data e.valid)
  simp only
  split
  · exact h
  · exact onlyMemory_trans h (onlyMemory_mark ..)

theorem onlyMemory_flushes (es : List GatherEntry) (c : Cell) : OnlyMemory c (es.foldl Cell.flushOwn c) := by
  induction es generalizing c with
  | nil => exact onlyMemory_refl _
  | cons e es ih => exact onlyMemory_trans (onlyMemory_flushEntry c _ e) (ih _)

/-- A row's flush changes memory, what it met there and the gather buffer alone. -/
theorem flushRow_eq (c : Cell) (u r : Nat) : c.flushRow u r = { c with
    mem := (c.flushRow u r).mem, poison := (c.flushRow u r).poison, latent := (c.flushRow u r).latent, wbacks := (c.flushRow u r).wbacks
    notes := (c.flushRow u r).notes, xbarParity := (c.flushRow u r).xbarParity
    sc := { c.sc with gather := c.sc.gather.filter (fun e => !entryIs u r e) } } := by
  have h := onlyMemory_flushes (c.sc.gather.filter (entryIs u r)) c
  unfold OnlyMemory at h
  unfold Cell.flushRow
  simp only
  rw [h]

/-- A flush of all entries changes memory, what it met there and the gather buffer alone. -/
theorem flushGather_eq (c : Cell) : c.flushGather = { c with
    mem := c.flushGather.mem, poison := c.flushGather.poison, latent := c.flushGather.latent, wbacks := c.flushGather.wbacks
    notes := c.flushGather.notes, xbarParity := c.flushGather.xbarParity, sc := { c.sc with gather := [] } } := by
  have h := onlyMemory_flushes c.sc.gather c
  unfold OnlyMemory at h
  unfold Cell.flushGather
  simp only
  rw [h]

theorem flushRow_x (c : Cell) (u r : Nat) : (c.flushRow u r).sc.x = c.sc.x := by rw [flushRow_eq]
theorem flushRow_scene (c : Cell) (u r : Nat) : sceneState (c.flushRow u r) = sceneState c := by
  rw [flushRow_eq]; rfl
theorem flushGather_scene (c : Cell) : sceneState c.flushGather = sceneState c := by
  rw [flushGather_eq]; rfl

/-- An empty buffer's flush is nothing. -/
theorem flushGather_empty (c : Cell) (h : c.sc.gather = []) : c.flushGather = c := by
  unfold Cell.flushGather
  rw [h]
  simp only [List.foldl_nil]
  rw [← h]

theorem filter_none {α : Type} (p : α → Bool) (l : List α) (h : ∀ a ∈ l, p a = false) : l.filter p = [] := by
  simp only [List.filter_eq_nil_iff]; intro a ha; simp [h a ha]

/-- Reading rows with no mark changes nothing. -/
theorem touch_clean (c : Cell) (u r n : Nat) (h1 : c.rowsBad u r n = false)
    (h2 : ∀ w ∈ c.latent, ¬(memKey u (r * 64) / 8 ≤ w ∧ w < memKey u (r * 64) / 8 + n * 8)) : c.touch u r n = c := by
  unfold Cell.touch
  have e1 : c.latent.filter (fun w => decide (memKey u (r * 64) / 8 ≤ w ∧ w < memKey u (r * 64) / 8 + n * 8)) = [] :=
    filter_none _ _ fun w hw => by simpa using h2 w hw
  have e2 : c.poison.filter (fun w => decide (memKey u (r * 64) / 8 ≤ w ∧ w < memKey u (r * 64) / 8 + n * 8)) = [] := by
    refine filter_none _ _ fun w hw => ?_
    unfold Cell.rowsBad at h1
    rw [List.any_eq_false] at h1
    have h3 := h1 w hw
    simp only [decide_eq_true_eq, decide_eq_false_iff_not] at h3 ⊢
    unfold memKey at *
    intro h4; apply h3
    omega
  simp only [e1, e2]
  simp

/-- A transfer with no parity error waiting is no more than a transfer. -/
theorem crossing_clean (c : Cell) (d : Bool) (h : c.xbarParity = 0) : c.crossing d = (c, true) := by
  unfold Cell.crossing; simp [h]

/-- Reading rows with no mark and no parity error waiting is no more than reading them. -/
theorem readRows_clean (c : Cell) (own u r n : Nat) (h0 : c.xbarParity = 0) (h1 : c.rowsBad u r n = false)
    (h2 : ∀ w ∈ c.latent, ¬(memKey u (r * 64) / 8 ≤ w ∧ w < memKey u (r * 64) / 8 + n * 8)) :
    c.readRows own u r n = (c, false) := by
  unfold Cell.readRows
  rw [touch_clean c u r n h1 h2, crossing_clean c _ h0]
  simp [h1]

/-- A read of rows changes no byte, and nothing but what it met. -/
theorem onlyMemory_readRows (c : Cell) (own u r n : Nat) : OnlyMemory c (c.readRows own u r n).1 :=
  onlyMemory_trans (onlyMemory_touch c u r n) (onlyMemory_crossing _ _)

theorem readRows_mem (c : Cell) (own u r n : Nat) : (c.readRows own u r n).1.mem = c.mem := by
  unfold Cell.readRows Cell.crossing
  simp only
  split
  · rfl
  · split <;> rfl

/-- A transfer gets through unless its parity fails twice. -/
theorem crossing_through (c : Cell) (d : Bool) : (c.crossing d).2 = true ↔ d = true ∨ c.xbarParity ≤ 1 := by
  unfold Cell.crossing
  split
  · rename_i h
    simp only [Bool.or_eq_true, decide_eq_true_eq] at h
    exact iff_of_true rfl (h.imp_right (by omega))
  · rename_i h
    simp only [Bool.or_eq_true, decide_eq_true_eq, not_or] at h
    split
    · exact iff_of_true rfl (.inr (by omega))
    · exact iff_of_false Bool.false_ne_true (by rintro (e | e); exacts [h.1 e, by omega])

/-- The scalar core's read of a row comes back good exactly where the row reads good. -/
theorem rowRead_good (k : Cell) (u r : Nat) : ((k.flushRow u r).readRows 7 u r 1).2 = false ↔ RowReads k u r := by
  unfold RowReads Cell.readRows
  simp only [Bool.or_eq_false_iff, Bool.not_eq_false', crossing_through]
  refine and_congr Iff.rfl ?_
  rw [decide_eq_true_eq]
  rfl

/-- What the scalar core's read of a row leaves as it was. -/
theorem rowRead_scene (k : Cell) (u r : Nat) : sceneState (rowRead k u r) = sceneState k := by
  have h := onlyMemory_readRows (k.flushRow u r) 7 u r 1
  unfold OnlyMemory at h
  unfold rowRead
  rw [h]
  exact flushRow_scene k u r

theorem sceneState_x (k : Cell) (r : Nat) (v : Word) : sceneState { k with sc := xset k.sc r v } = sceneState k := by
  unfold sceneState acknowledged cellDrained; simp [Cell.mat]

/-- A narrow store changes memory, what it met there and the gather buffer alone. -/
theorem gatherStore_eq (c : Cell) (u o : Nat) (bs : List Byte) : ∃ m p l w n x g, c.gatherStore u o bs = { c with
    mem := m, poison := p, latent := l, wbacks := w, notes := n, xbarParity := x, sc := { c.sc with gather := g } } := by
  unfold Cell.gatherStore
  simp only
  generalize hc : (if c.sc.gather.any (entryIs u (o/64)) then _ else _ : Cell) = c1
  have h1 : ∃ m p l w n x g, c1 = { c with mem := m, poison := p, latent := l, wbacks := w, notes := n, xbarParity := x, sc := { c.sc with gather := g } } := by
    subst hc
    split
    · exact ⟨_, _, _, _, _, _, _, rfl⟩
    · split
      · split
        · rename_i e es _
          have h := onlyMemory_flushEntry c (decide (e.unit = 7)) e
          unfold OnlyMemory at h
          unfold Cell.flushOwn
          rw [h]
          exact ⟨_, _, _, _, _, _, _, rfl⟩
        · exact ⟨_, _, _, _, _, _, _, rfl⟩
      · exact ⟨_, _, _, _, _, _, _, rfl⟩
  obtain ⟨m, p, l, w, n, x, g, h1⟩ := h1
  split
  · rw [flushRow_eq, h1]; exact ⟨_, _, _, _, _, _, _, rfl⟩
  · exact ⟨_, _, _, _, _, _, _, h1⟩

theorem gatherStore_scene (c : Cell) (u o : Nat) (bs : List Byte) : sceneState (c.gatherStore u o bs) = sceneState c := by
  obtain ⟨m, p, l, w, n, x, g, h⟩ := gatherStore_eq c u o bs
  rw [h]; rfl


/-! The vector core. -/

/-- Everything one instruction of the vector core can do. -/
theorem vecStep_cases (op : Nat) (bad : Bool) (body : Cell → VRes) (c : Cell) :
    ((c.vec.running = false ∨ (c.vec.waiting ≠ 0 ∧ c.vec.waiting ≠ op)) ∧ vecStep op bad body c = c) ∨
    (c.vec.running = true ∧ 24575 < c.vec.pc ∧ vecStep op bad body c = vecFault c 2) ∨
    (c.vec.running = true ∧ c.vec.pc ≤ 24575 ∧ bad = true ∧ vecStep op bad body c = vecFault c 1) ∨
    (c.vec.running = true ∧ c.vec.pc ≤ 24575 ∧ bad = false ∧ vecStep op bad body c = vecEnd op c.vec.pc (body c)) := by
  unfold vecStep
  cases h1 : c.vec.running
  · simp
  · by_cases h2 : c.vec.waiting ≠ 0 ∧ c.vec.waiting ≠ op
    · simp [h2]
    · by_cases h3 : 24575 < c.vec.pc
      · simp [h2, h3]
      · have h3' : c.vec.pc ≤ 24575 := by omega
        cases bad <;> simp [h2, h3, h3']

theorem vecStep_may (s : State) (c : CellRef) (op : Nat) (body : Cell → VRes) (h : VecMay s c op) :
    vecStep op false body (cellOf s c) = vecEnd op (cellOf s c).vec.pc (body (cellOf s c)) := by
  obtain ⟨_, h1, h2, h3⟩ := h
  have : ¬((cellOf s c).vec.waiting ≠ 0 ∧ (cellOf s c).vec.waiting ≠ op) := by
    rintro ⟨a, b⟩; rcases h2 with h2 | h2 <;> contradiction
  have h4 : ¬24575 < (cellOf s c).vec.pc := by omega
  unfold vecStep
  simp [h1, this, h4]

end Sys2Proof.Machine
end

