-- ==== Sys2Proof/WellFormed.lean ====
section
/-! DEFINITION. Well-formed commands: the ranges the spec gives the operands that are wider in the syntax than in the
module. The meanings do not consult it: outside these ranges a command names something the module does not
have, and its meaning finds no occasion for it. -/

namespace Sys2Proof

/-- Rows of a memory unit: 3,072 of a scratchpad, 4,096 of shared memory (R26, Table 01-9). -/
def rowsOfUnit (u : Nat) : Nat := if u < 8 then 3072 else 4096

/-- A link frame carries at most 68 payload words (Table 11-4, SIZE). -/
def Frame.wf (fr : Frame) : Bool := decide (fr.payload.length ≤ 68)

/-- A SHA-384-size signature of 96 bytes (R410). -/
def BootImage.wf (im : BootImage) : Bool := decide (im.sig.length = 96)

/-- A requester's nonce is 32 bytes (R415). -/
def SpdmReq.wf (q : SpdmReq) : Bool := decide (q.nonce.length = 32)

/-- A cell of the grid: field, row, physical column (R5, R24). -/
def cellAt (p : Nat × Nat × Nat) : Bool := decide (p.1 < 72 ∧ p.2.1 < 16 ∧ p.2.2 < 25)

/-- The units of a bring-up step's findings (Table 16-2). -/
def Findings.wf (fd : Findings) : Bool :=
  fd.cells.all cellAt && fd.cellsSlow.all cellAt && fd.links.all (fun p => decide (p.1 < 72 ∧ p.2.1 < 16 ∧ p.2.2 < 24)) &&
  fd.seams.all (fun p => decide (p.1 < 72 ∧ p.2.1 < 16 ∧ if p.2.2 then p.1 < 63 ∧ p.2.1 = 15 else p.1 % 9 < 8)) &&
  fd.stratRows.all (fun p => decide (p.1 < 72 ∧ p.2.1 < 16)) && fd.volts.all (fun f => decide (f < 72)) && fd.channels.all (fun p => decide (p.1 < 72 ∧ p.2 < 16)) &&
  fd.fieldPlls.all (fun f => decide (f < 72)) && fd.lanes.all (fun p => decide (p.1 < 48 ∧ p.2 < 17))

/-- Whether a command's operands are in the ranges of the module. -/
def Instr.wf : Instr → Bool
  | .scrubRead _ u row => decide (row.toNat < rowsOfUnit u)
  | .linkFrameReceive _ fr => fr.wf
  | .cueReadReturn _ _ _ words => decide (words.length ≤ 64)
  | .registerWrite _ off width _ => decide ((width = 4 ∨ width = 8) ∧ off % width = 0 ∧ off < 2 ^ 26)
  | .delayModeWaitEnd _ counts => decide (counts.length = 8)
  | .energyUpdate _ perField => decide (perField.length = 72)
  | .bringupStepComplete fd => fd.wf
  | .bootImageLoad im backup => im.wf && backup.wf
  | .encoreCopyDone x => decide (x.off % 64 = 0 ∧ x.len % 64 = 0)
  | .encoreReplayEnd _ _ _ digest => decide (digest.length = 48)
  | .rehearsalEnd _ failed => failed.all (fun p => decide (p.1 < 16 ∧ p.2 < 25))
  | .getVersion _ q => q.wf
  | .getCapabilities _ q => q.wf
  | .negotiateAlgorithms _ q => q.wf
  | .getDigests _ q => q.wf
  | .getCertificate _ q => q.wf
  | .challenge _ q => q.wf
  | .getMeasurements _ q => q.wf
  | _ => true

end Sys2Proof
end

