-- ==== Sys2Proof/Tests/Slice0.lean ====
section
/-! SUPPORT. Tests: the checks of WellFormed, worked examples of the spec, and for each statement with hypotheses a
state and operands that meet them, clause by clause (`witness_<statement>`). -/

namespace Sys2Proof.Tests
open Machine

set_option Elab.async false

/-! ### Small states -/

/-- A running device with field 0 on, Prompter up. -/
def base : Mod := ({ State.reset.m with prompter := 2, perstLow := [] } : Mod).put (fsDomain 0) 2

def sb0 : Standby := { State.reset.sb with pwrEn := true, phase := .running, straps := ⟨0, 0, 0, 0, 0⟩ }

def up (m : Mod) : State := { State.reset with sb := sb0, m := m }

/-- The next state, where there is one. -/
def after (o : Host.Outcome State Fault Refusal) : State := match o with | .next t => t | _ => State.reset

def c0 : CellRef := ⟨0, 0⟩

/-- Cell 0 of field 0 as given. -/
def inCell (k : Cell) : State := up (base.setCell 0 0 k)

/-- A scalar core that runs, with registers as given. -/
def core (x : List (Nat × Word)) : Cell := { Cell.zero with sc := { Cell.zero.sc with run := .running, x := x } }

/-- A vector core that runs. -/
def vcore : Cell := { Cell.zero with vec := { Cell.zero.vec with running := true } }

/-- Company 0 enabled over field 0, ready, its state as given, Prompter up. -/
def inCo (st : Nat) (x : Company) : Mod :=
  let m := ((((base.put (cdEn 0) 1).put (fiInCo 0) 1).put (fiCo 0) 0).put (ctReady 0) 1).put (jobState 0) st
  m.setCo 0 x

def prod0 : Production := ⟨1, 1, 64, 0, 0, [(true, 0), (false, 4)], [], 0, 0, [(0, 0)]⟩

def job0 : Job := ⟨0, 0, 0, none, none, [], []⟩

/-- A loaded company. -/
def loaded : Company := { Company.zero with prod := some prod0 }

/-- A company with a job. -/
def working : Company := { loaded with job := some job0 }

/-- A scene change in a phase. -/
def change0 (phase : Nat) : SceneChange := ⟨1, false, false, none, phase, [], [], false, false⟩

def changing (phase : Nat) : Company := { working with change := some (change0 phase) }

theorem noScene_of_none (s : State) (c : CellRef) (h : s.m.coOf c.field = none) : NoSceneWait s c := by
  intro co g h1; rw [h] at h1; cases h1

def x0 : XForm := ⟨0, 0, 0, 0, 0⟩
def i0 : IForm := ⟨1, 2, 5⟩
def y0 : SysForm := ⟨0, 0, 0, 0⟩
def r0 : VRForm := ⟨0, 0, 0, 0, 0, 0, 0, 0, 0, 0, 0, 0⟩
def m0 : VMForm := ⟨0, 0, 0, 0, 0, 6, 0, 0, 0, 0, 0, 0⟩
def vc0 : VCForm := ⟨0, 0, 0, 0, 0, 0, 0, 0, 0, 0⟩

/-! ### Well-formedness refuses -/

theorem test_wf_scrub : Instr.wf (.scrubRead c0 0 3072) = false ∧ Instr.wf (.scrubRead c0 0 3071) = true := by decide
theorem test_wf_frame : Instr.wf (.linkFrameReceive 0 ⟨0, 0, 0, 0, List.replicate 69 0, true, 0⟩) = false := by decide
theorem test_wf_cues : Instr.wf (.cueReadReturn 0 0 true (List.replicate 65 0)) = false := by decide
theorem test_wf_register : Instr.wf (.registerWrite .pf 0x200 2 0) = false ∧ Instr.wf (.registerWrite .pf 0x204 8 0) = false ∧
    Instr.wf (.registerWrite .pf 0x4000000 8 0) = false ∧ Instr.wf (.registerWrite .pf 0x204 4 0) = true := by decide
theorem test_wf_counts : Instr.wf (.delayModeWaitEnd true []) = false ∧ Instr.wf (.energyUpdate 0 []) = false := by decide
theorem test_wf_findings : Instr.wf (.bringupStepComplete ⟨[(0, 16, 0)], [], [], [], [], [], [], [], []⟩) = false ∧
    Instr.wf (.bringupStepComplete ⟨[(0, 0, 24)], [], [], [], [], [], [], [], []⟩) = true ∧
    Instr.wf (.bringupStepComplete ⟨[], [], [(0, 0, 24)], [], [], [], [], [], []⟩) = false ∧
    Instr.wf (.bringupStepComplete ⟨[], [], [], [(8, 0, false)], [], [], [], [], []⟩) = false ∧
    Instr.wf (.bringupStepComplete ⟨[], [], [], [(0, 0, true), (0, 15, true)], [], [], [], [], []⟩) = false ∧
    Instr.wf (.bringupStepComplete ⟨[], [], [], [(8, 15, true)], [], [], [], [], []⟩) = true ∧
    Instr.wf (.bringupStepComplete ⟨[], [], [], [], [(0, 16, 0, 0)], [], [], [], []⟩) = false ∧
    Instr.wf (.bringupStepComplete ⟨[], [], [], [], [], [(0, 16)], [], [], []⟩) = false ∧
    Instr.wf (.bringupStepComplete ⟨[], [], [], [], [], [], [72], [], []⟩) = false ∧
    Instr.wf (.bringupStepComplete ⟨[], [], [], [], [], [], [], [(48, 0)], []⟩) = false := by decide
theorem test_wf_image : Instr.wf (.bootImageLoad ⟨[], [], 0, 0⟩ ⟨[], [], 0, 0⟩) = false := by decide
theorem test_wf_digest : Instr.wf (.encoreReplayEnd 0 0 true []) = false := by decide
theorem test_wf_rehearsal : Instr.wf (.rehearsalEnd 0 [(16, 0)]) = false := by decide

/-! ### Witnesses: the scalar core -/

/-- Words of Tables 06-8 and 06-9, put together by hand: ADDI x1, x2, 5; BEQ x3, x4, -1; JAL +2; FLD x5, x6 with NF; CSRR x7, CELL; a full
fence; and words with a reserved opcode, FENCE kind and SYS FN. -/
theorem test_scalar_words : scalarWord c0 0x08220005 = .addi c0 ⟨1, 2, 5⟩ ∧ scalarWord c0 0xA064FFFF = .beq c0 ⟨3, 4, -1⟩ ∧
    scalarWord c0 0xB8000002 = .jal c0 2 ∧ scalarWord c0 0x70A60004 = .fld c0 ⟨5, 6, 0, 0, 4⟩ ∧
    scalarWord c0 0xFCE02801 = .csrr c0 ⟨7, 0, 5, 0⟩ ∧ scalarWord c0 0x80000002 = .fullFence c0 ⟨0, 0, 0⟩ ∧
    (∀ w ∈ [0, 0x80000003#32, 0xFC000003#32], scalarWord c0 w = badScalar c0) := by
  refine ⟨rfl, rfl, rfl, rfl, rfl, rfl, ?_⟩
  simp only [List.forall_mem_cons, List.not_mem_nil, false_imp_iff, implies_true, and_true]
  exact ⟨rfl, rfl, rfl⟩

theorem test_bad_scalar : ((after (exec (badScalar c0) (inCell (core [])))).m.cell 0 0).sc.run = .stopped := by decide +kernel

/-- Worked example 06-1's words, masked and by columns, and the word 0. -/
theorem test_vector_words : vectorWord c0 0x2910400900000000 = .vrmax c0 { r0 with vd := 2, va := 1, men := 1, mr := 1 } ∧
    vectorWord c0 0x2910400000400000 = .vrmax c0 { r0 with vd := 2, va := 1, sub := 1 } ∧
    ((after (exec (vectorWord c0 0) (inCell vcore))).m.cell 0 0).vec.fault = 1 := ⟨rfl, rfl, by decide +kernel⟩

/-- The queue's head runs with the rest; the answer is that of the command alone. -/
theorem test_step_front : step { (up base) with pending := [.nop 0 0, .poll 0] } =
    exec (.nop 0 0) { (up base) with pending := [.poll 0] } := by rfl

theorem witness_ScalarResults :
    let s := inCell (core [(1, 7)])
    (CellGoes s c0 ∧ scalarReady (cellOf s c0).sc 0x01 = true ∧ (cellOf s c0).sc.pc < 0x30000) ∧
      0x14 < (0x15 : BitVec 8).toNat ∧ (1 : BitVec 3) ≠ 0 ∧ (1 : BitVec 5) ≠ 0 ∧
      ScalarMay s c0 0x01 0 [1, 1, 31] ∧ ScalarMay s c0 0x02 0 [2, 1] ∧ ScalarMay s c0 0x03 0 [2, 1] ∧ ScalarMay s c0 0x04 0 [2, 1] ∧
      ScalarMay s c0 0x05 0 [2, 1] ∧ (ScalarMay s c0 0x06 0 [2, 1] ∧ (191#16).toNat < 192) ∧
      (ScalarMay s c0 0x07 0 [0, 1] ∧ (0 : BitVec 5) = 0) ∧ ScalarMay s c0 0x08 0 [2, 1] ∧ (1#64).getLsbD 0 = true := by
  unfold ScalarMay CellGoes; decide +kernel

/-- The corners of R142: 2^63 negated by division, and by zero; a high product; CLZ and POPCNT. -/
theorem test_alu : aluFn 0x0D (1#64 <<< 63) (-1) = 1#64 <<< 63 ∧ aluFn 0x0F (1#64 <<< 63) (-1) = 0 ∧ aluFn 0x0D 5 0 = -1 ∧
    aluFn 0x10 5 0 = 5 ∧ aluFn 0x0C (-1) (-1) = -2 ∧ aluFn 0x0B (-1) (-1) = 0 ∧ aluFn 0x11 1 0 = 63 ∧ aluFn 0x12 7 0 = 3 ∧
    aluFn 0x07 (1#64 <<< 63) 63 = -1 ∧ aluFn 0x05 1 64 = 1 := by decide +kernel

theorem witness_BranchResults :
    let s := inCell (core [(1, 7)])
    ScalarMay s c0 0x28 0 [1, 1] ∧ ScalarMay s c0 0x29 0 [1, 2] ∧ ScalarMay s c0 0x2A 0 [1, 2] ∧ ScalarMay s c0 0x2B 0 [1, 2] ∧
      ScalarMay s c0 0x2C 0 [1, 2] ∧ ScalarMay s c0 0x2D 0 [1, 2] ∧ ScalarMay s c0 0x2E 0 [31] ∧ ScalarMay s c0 0x2F 0 [1, 1] := by
  unfold ScalarMay CellGoes; decide +kernel

/-- A backward branch by one instruction, and JAL's link. -/
theorem test_branch : pcPlus 8 (-1) = 4 ∧
    xget ((after (exec (.jal c0 2) (inCell (core [])))).m.cell 0 0).sc 31 = 4 ∧
    ((after (exec (.jal c0 2) (inCell (core [])))).m.cell 0 0).sc.pc = 8 := by decide +kernel

/-- The last bytes of unit 6, and of unit 8. -/
theorem witness_LoadAndStoreResults :
    let s := inCell (core [])
    (∀ op ∈ [0x10, 0x11, 0x12, 0x13, 0x14, 0x15, 0x16], ScalarMay s c0 op 1 [0, 1]) ∧
      (∀ op ∈ [0x18, 0x19, 0x1A, 0x1B], ScalarMay s c0 op 2 [0, 1]) ∧
      localAddr (0#64 + (0#16).signExtend 64) 8 = some (0, 0) ∧ localAddr 0x0002FFF8 8 = some (0, 0x2FFF8) ∧
      localAddr 0x0002FFFF 1 = some (0, 0x2FFFF) ∧ localAddr 0x0003FFF8 8 = none ∧ localAddr 4 8 = none := by
  unfold ScalarMay CellGoes; decide +kernel

/-- A row that reads well, from a unit of its own and over the crossbar, and one that does not. -/
theorem witness_rowReads : RowReads (cellOf (inCell (core [])) c0) 0 (0x2FFF8 / 64) ∧
    RowReads (cellOf (inCell { core [] with xbarParity := 2 }) c0) 7 0 ∧ ¬RowReads (cellOf (inCell { core [] with xbarParity := 2 }) c0) 0 0 ∧
    ¬RowReads (cellOf (inCell { core [] with poison := [0] }) c0) 0 0 := by
  unfold RowReads; decide +kernel

/-- A byte stored is loaded back sign-extended, before the gather buffer's timeout. -/
theorem test_store_load :
    xget ((after (exec (.lb c0 ⟨2, 0, 3⟩) (after (exec (.sb c0 ⟨1, 0, 3⟩) (inCell (core [(1, 0x80)])))))).m.cell 0 0).sc 2 = -128 := by
  decide +kernel

def full64 : GatherEntry := ⟨0, 0, List.replicate 64 0, 1, 0⟩

theorem witness_GatherBuffer :
    let k := { core [] with sc := { (core []).sc with gather := [full64] } }
    GatherOk k ∧ (8 ≤ 8 ∧ 0x3FFF8 + 8 ≤ unitBytes 8 ∧ 0x3FFF8 % 64 + 8 ≤ 64) ∧ (0 + 1 ≤ unitBytes 0) := by
  unfold GatherOk; decide +kernel

theorem witness_ScalarFaultsAndWaits :
    (let s := inCell { core [] with sc := { (core []).sc with pc := 0x30000 } }
     CellGoes s c0 ∧ scalarReady (cellOf s c0).sc 0x01 = true ∧ 0x30000 ≤ (cellOf s c0).sc.pc ∧ fullHeld (cellOf s c0).sc = false) ∧
    (∀ pc ∈ [0, 0x30000], let s := inCell { core [] with sc := { (core []).sc with pc := pc, barriers := [⟨[0], 2⟩], outst :=
        [⟨0, 0, 0, 1, false, false, 0, .load, false⟩] } }
     CellGoes s c0 ∧ scalarReady (cellOf s c0).sc 0x01 = true ∧ fullHeld (cellOf s c0).sc = true) ∧
    (let s := inCell (core [(1, 4)])
     ScalarMay s c0 0x16 1 [1, 2] ∧ ScalarMay s c0 0x1B 2 [1, 2] ∧ localAddr (xget (cellOf s c0).sc 1 + 0#64) 8 = none ∧
       ScalarMay s c0 0x1C 3 [1, 2] ∧ (xget (cellOf s c0).sc 1).toNat % 8 ≠ 0) ∧
    (let s := inCell { core [] with sc := { (core []).sc with barriers := [⟨[0], 1⟩], outst :=
        [⟨0, 0, 0, 1, false, true, 0, .load, false⟩] } }
     CellGoes s c0 ∧ (cellOf s c0).sc.pc < 0x30000 ∧ scalarHeld (cellOf s c0).sc 2 [3, 4] = true ∧
       scalarReady (cellOf s c0).sc 0x18 = true ∧ scalarReady (cellOf s c0).sc 0x1B = true) := by
  unfold ScalarMay CellGoes; decide +kernel

theorem witness_FenceAndCsr :
    let s := inCell (core [(1, 7)])
    (ScalarMay s c0 0x20 0 [] ∧ (cellOf s c0).sc.outst = []) ∧ ScalarMay s c0 0x101 0 [31] ∧ ScalarMay s c0 0x102 0 [1] ∧
      (7#5).toNat ≤ 7 ∧ ScalarMay s c0 0x3E 0 [1, 2] ∧ xget (cellOf s c0).sc 1 ≠ 0 ∧ (cellOf s c0).sc.events &&& 7 = 0 := by
  unfold ScalarMay CellGoes; decide +kernel

def acc0 (kind : Nat) (nf : Bool) : FabAcc := ⟨0, kind, 0, 1, nf, false, 0, .load, false⟩
def gens0 : Gens := ⟨0, 0, 0⟩

theorem witness_FabricAccesses :
    let s := inCell (core [(1, 8)])
    (ScalarMay s c0 0x1C 3 [1, 2] ∧ ScalarMay s c0 0x1D 4 [1, 3] ∧ ScalarMay s c0 0x1E 4 [1, 3, 2]) ∧
      (xget (cellOf s c0).sc 1).toNat % 8 = 0 ∧ (cellOf s c0).sc.outst.length < 8 ∧ (7 : Nat) < 8 ∧ (47 : Nat) < 48 ∧
      ∀ a ∈ (cellOf s c0).sc.outst, a.kind = 0 := by
  unfold ScalarMay CellGoes; decide +kernel

theorem witness_FabricReplies : ∀ st ∈ [0, 4], ∀ nf ∈ [true, false], ∀ kind ∈ [0, 1, 2],
    let r : Reply := ⟨.scalar 0 0 0, st, toLe 5 8, [], gens0⟩
    let s := inCell { core [] with sc := { (core []).sc with outst := [acc0 kind nf], nextId := 1 }, replies := [r] }
    s.m.cellRuns 0 0 = true ∧ r ∈ (cellOf s c0).replies ∧
      (∀ q ∈ (cellOf s c0).replies, isFlyReply q = false → replyId q = 0 → q = r) ∧ s.m.staleReply 0 0 false r.gens = 0 ∧
      (cellOf s c0).sc.outst.find? (fun b => decide (b.id = 0)) = some (acc0 kind nf) ∧ r.status ≠ 2 := by decide +kernel

theorem witness_MatrixSequencing :
    (let s := inCell ((core []).setMat 5 { Machine.Matrix.zero with fault := 1 })
     ScalarMay s c0 0x30 5 [1, 2, 3] ∧ ((cellOf s c0).mat 5).fault ≠ 0 ∧ ScalarMay s c0 0x33 0 [1, 2]) ∧
    (let s := inCell (core [(1, 40000)])
     ScalarMay s c0 0x30 5 [1, 2, 3] ∧ ((cellOf s c0).mat 5).fault = 0 ∧ (matrixPush (cellOf s c0) 5 (15#128 <<< 122)).isSome = true ∧
       (matrixPush ((cellOf s c0).setMat 5 { Machine.Matrix.zero with queue := List.replicate 8 0 }) 5 0).isNone = true ∧
       ScalarMay s c0 0x31 0 [1] ∧ ScalarMay s c0 0x32 0 [] ∧ ScalarMay s c0 0x33 0 [1, 2] ∧
       ¬((0 + 65536 - (xget (cellOf s c0).sc 2).toNat % 65536) % 65536 ≥ 32768 ∨ ((cellOf s c0).mat 5).fault ≠ 0)) := by
  unfold ScalarMay CellGoes; decide +kernel

/-- MCWAIT for the count 1 on an idle core waits (65,535 past). -/
theorem witness_MatrixWaits :
    let s := inCell (core [(1, 1)])
    ScalarMay s c0 0x33 0 [1, 2] ∧ ¬((((cellOf s c0).mat 0).completed + 65536 - (xget (cellOf s c0).sc 1).toNat % 65536) % 65536 < 32768 ∨
      ((cellOf s c0).mat 0).fault ≠ 0) := by
  unfold ScalarMay CellGoes; decide +kernel

theorem witness_noScene : NoSceneWait (inCell (core [(1, 40000)])) c0 := noScene_of_none _ _ (by decide +kernel)

theorem witness_VectorSequencing :
    (let s := inCell (core [(1, 7)])
     ((cellOf s c0).vec.running = false ∧ (cellOf s c0).vec.fault = 0) ∧ ScalarMay s c0 0x34 5 [1] ∧ ScalarMay s c0 0x35 0 [1] ∧
       ScalarMay s c0 0x36 0 [1] ∧ ScalarMay s c0 0x37 0 [] ∧ ScalarMay s c0 0x140 0 [1]) ∧
    (let s := inCell { core [] with vec := vcore.vec }
     ScalarMay s c0 0x34 5 [1] ∧ ¬((cellOf s c0).vec.running = false ∧ (cellOf s c0).vec.fault = 0)) := by
  unfold ScalarMay CellGoes; decide +kernel

/-- A fill of one row of the cell's own unit 0. -/
def desc0 : List Byte := toLe (3 + 2 ^ 16 + 2 ^ 32 + 2 ^ (48 + 128)) 64

theorem witness_FlyResults :
    let s := inCell (core [(1, 0)])
    (ScalarMay s c0 0x38 5 [1, 2] ∧ localAddr 0 64 = some (0, 0) ∧ freeTag (cellOf s c0).fly = some 0 ∧
      descCode (envOf s c0) (List.replicate 64 0) ≠ 0 ∧ descCode (envOf s c0) desc0 = 0) ∧ ScalarMay s c0 0x39 0 [1, 2] ∧
      (∀ t ∈ (cellOf s c0).fly.transfers, t.tag ≠ 0) := by
  unfold ScalarMay CellGoes; decide +kernel

def transfer0 (tag : Nat) (d : List Byte) : Transfer := newTransfer { Fly.zero with nextId := tag } tag d

/-- With all sixteen tags in use FLY waits, and FLYWAIT for one of them. -/
theorem witness_FlyBusy :
    let s := inCell { core [] with fly := { Fly.zero with transfers := (List.range 16).map (fun i => transfer0 i desc0) } }
    ScalarMay s c0 0x38 5 [1, 2] ∧ (localAddr 0 64).isSome ∧ freeTag (cellOf s c0).fly = none ∧ ScalarMay s c0 0x39 0 [1, 2] ∧
      ∃ t ∈ (cellOf s c0).fly.transfers, t.tag = 15 := by
  unfold ScalarMay CellGoes; decide +kernel

/-- A rigging plan with some bytes set. -/
def rigWith (bs : List (Nat × Byte)) : Rig := { Rig.zero with active := bs.foldl (fun m p => writeByte m p.1 p.2) [] }

def tok0 (bad : Bool) : Token := ⟨List.replicate 32 1, bad, 0⟩

theorem witness_AsideAndPorts :
    (let s := inCell { core [] with rig := rigWith [(0x17, 0x81), (0x0F, 0x81)] }
     ScalarMay s c0 0x3A 5 (xRange 28 4) ∧ 28 + 4 ≤ 32 ∧ asideOutOn (cellOf s c0).rig 7 = true ∧
       ScalarMay s c0 0x3B 0 (xRange 28 4) ∧ asideInOn (cellOf s c0).rig 7 = true ∧ ((cellOf s c0).asideQueue 7).lens = []) ∧
    (let s := inCell { core [] with rig := rigWith [(0x0F, 0x80)], asideQ := [(7, ⟨7, [4, 1]⟩)] }
     ScalarMay s c0 0x3B 0 (xRange 0 4) ∧ ((cellOf s c0).asideQueue 7).lens = [4, 1] ∧ slotOff 7 7 / 64 < unitRows 7) ∧
    (let g := { rigWith [(0xCE, 5), (0xCF, 0x80), (0xCC, 64), (0xCD, 0xC0)] with queues := [(5, [tok0 false])] }
     let s := inCell { core [] with rig := g }
     ScalarMay s c0 0x3C 0 (xRange 28 4) ∧ (cellOf s c0).rig.portIn 0xC0 7 = .token (tok0 false) 5 ∧
       ScalarMay s c0 0x3D 5 (xRange 28 4) ∧ (cellOf s c0).rig.portOut 0xC0 6 = .queue 64) := by
  unfold ScalarMay CellGoes; decide +kernel

theorem witness_asideRow :
    RowReads (cellOf (inCell { core [] with asideQ := [(7, ⟨7, [4, 1]⟩)] }) c0) 7 (slotOff 7 7 / 64) := by
  unfold RowReads; decide +kernel

theorem witness_SceneAck :
    (let s := inCell { core [] with sc := { (core []).sc with released := true } }
     ScalarMay s c0 0x110 5 [1] ∧ ((cellOf s c0).flushGather).sc.released = true) ∧
    (let s := inCell { core [] with sc := { (core []).sc with released := false } }
     ScalarMay s c0 0x110 5 [1] ∧ ((cellOf s c0).flushGather).sc.released = false ∧ s.m.sceneAsked 0 = false ∧
       ScalarMay s c0 0x120 5 [1] ∧ jobDrained ((cellOf s c0).flushGather) = true) ∧
    (let s := inCell { core [] with vec := vcore.vec }
     ScalarMay s c0 0x120 5 [1] ∧ jobDrained ((cellOf s c0).flushGather) = false) := by
  unfold ScalarMay CellGoes; decide +kernel

theorem witness_cellQuiet : NoSceneWait (inCell { core [] with vec := vcore.vec }) c0 := noScene_of_none _ _ (by decide +kernel)

def req0 (op : FabOp) : Req := ⟨.scalar 0 1 0, 0, 1#64 <<< 48, op, gens0, none⟩

theorem witness_CellMemory :
    (let s := inCell { core [] with sc := { (core []).sc with gather := [full64] }, wbacks := [3] }
     s.m.cellRuns 0 0 = true ∧ (cellOf s c0).sc.gather[0]? = some full64 ∧ (cellOf s c0).wbacks[0]? = some 3) ∧
    (let s := inCell (core [])
     s.m.isSet (cmScrubEn 0) = true ∧ (4095#12).toNat < unitRows 8 ∧ (cellOf s c0).sc.gather = []) ∧
    (∀ op ∈ [.store 5, .write [1] [], .read 512, .load, .atomic 0 1 0, .atomic 5 1 0, .atomic 5 1 9],
      let s := up ((base.put (fiInCo 0) 1).setCell 0 0 { core [] with inbound := [req0 op] })
      s.m.cellRuns 0 0 = true ∧ (cellOf s c0).inbound = req0 op :: [] ∧ s.m.staleReq (req0 op) = false ∧ s.m.inboundTurn 0 0 = true ∧
        (req0 op).ledger = none ∧ ((cellOf s c0).readRows 9 0 0 8).2 = false) ∧
    ((core []).readRows 9 0 0 1).2 = false ∧ ({ core [] with poison := [0] }.readRows 9 0 0 1).2 = true ∧
    (let r := { req0 .load with gens := ⟨0, 1, 0⟩ }
     (up base).m.staleReq r = true) := by decide +kernel

def aside0 : Body := .aside 7 [1, 2, 3, 4] [] 0 1 0 0 0

theorem witness_Asides :
    (let s := inCell { core [] with asides := [aside0], asideQ := [(7, ⟨3, [1, 1, 1, 1, 1, 1, 1]⟩)], rig := rigWith [(0x0F, 0x80)] }
     s.m.cellRuns 0 0 = true ∧ (cellOf s c0).asides = aside0 :: [] ∧ 0 = s.m.get (gsCgen 0) ∧ ((cellOf s c0).asideQueue 7).lens.length < 8 ∧
       (s.m.co 0).reset = none ∧ asideInOn (cellOf s c0).rig 7 = true ∧ (0 : Nat) ≠ (s.m.put (gsCgen 0) 1).get (gsCgen 0)) ∧
    (let s := inCell { core [] with asides := [aside0], asideQ := [(7, ⟨3, [1, 1, 1, 1, 1, 1, 1, 1]⟩)], refusals := [.refusal 7 0] }
     (cellOf s c0).asides = aside0 :: [] ∧ 8 ≤ ((cellOf s c0).asideQueue 7).lens.length ∧
       (cellOf s c0).refusals = .refusal 7 0 :: [] ∧ 0 = s.m.get (gsCgen ((s.m.coOf 0).getD 0)) ∧
       (s.m.co ((s.m.coOf 0).getD 0)).reset = none) := by decide +kernel

/-! ### Witnesses: the matrix cores -/

/-- Cell 0 with one command at the head of matrix core 0. -/
def withCmd (d : Word128) : State := inCell (Cell.zero.setMat 0 { Machine.Matrix.zero with queue := [d] })

def cmd (op : Nat) (rest : Nat) : Word128 := BitVec.ofNat 128 (op * 2 ^ 122 + rest)

/-- E4M3 by E4M3, one block, A at row 0 and B at row 8 of unit 0, scales at rows 16 and 17, with ZERO. -/
def mma0 : Word128 := cmd 1 (2 * 2 ^ 116 + 2 * 2 ^ 112 + 2 ^ 111 + 8 * 2 ^ 56 + 16 * 2 ^ 40 + 17 * 2 ^ 24)

def mmasp0 : Word128 := cmd 3 (2 * 2 ^ 116 + 2 * 2 ^ 112 + 2 ^ 111)

/-- The same with MASK, and PMASK bit 0 clear: skipped. -/
def skipped (d : Word128) : Word128 := d ||| (1 <<< 110)

/-- The command is at the head of an idle core and begins. -/
def Begins (d : Word128) : Prop := (withCmd d).m.cellRuns 0 0 = true ∧ readyHead (cellOf (withCmd d) c0) 0 (cOp d) = some d

theorem witness_MatrixControl : Begins (cmd 0x0A (15 * 2 ^ 116)) ∧ Begins (cmd 0x0C 0) ∧ Begins (cmd 0x0D 5) ∧ Begins (cmd 0x0F 0) := by
  unfold Begins; decide +kernel

def begun0 (fc : Nat) : Begun := ⟨cmd 0x0D 5, 2, false, false, fc, false, [], []⟩

def withBegun (fc : Nat) : State := inCell (Cell.zero.setMat 0 { Machine.Matrix.zero with begun := [begun0 fc] })

theorem witness_MatrixSetmaskEnds : (withBegun 0).m.cellRuns 0 0 = true ∧ ((cellOf (withBegun 0) c0).mat 0).begun = [begun0 0] ∧
    cOp (begun0 0).cmd = 0x0D ∧ ((cellOf (withBegun 0) c0).mat 0).queue = [] ∧
    ((cellOf (withBegun 3) c0).mat 0).begun = [begun0 3] ∧ isMma (begun0 3).cmd = false := by decide +kernel

theorem witness_MatrixArray : Begins mma0 ∧ Begins mmasp0 ∧ Begins (cmd 4 0) ∧ Begins (skipped mma0) ∧ Begins (skipped mmasp0) := by
  unfold Begins; decide +kernel

theorem witness_MatrixSkips : willSkip ((cellOf (withCmd mma0) c0).mat 0) mma0 = false ∧
    willSkip ((cellOf (withCmd (skipped mma0)) c0).mat 0) (skipped mma0) = true ∧
    parityBad (((cellOf (withCmd mma0) c0).mat 0).zeroAcc (cAcc mma0)) (2 ^ cAcc mma0) = false := by decide +kernel

/-- A STACC to FP32 and to BF16, and an LDACC. -/
theorem witness_MatrixTransfer : Begins (cmd 8 0) ∧ Begins (cmd 9 0) ∧ Begins (cmd 9 (2 ^ 116)) ∧ cPair (cmd 9 0) = false ∧
    parityBad Machine.Matrix.zero 1 = false ∧ staccShape 0 false = some (64, 16) ∧ staccShape 1 false = some (32, 8) := by
  unfold Begins; decide +kernel

/-- A reference line apart from its zero sum trips. -/
theorem witness_MatrixChecks :
    some true ∈ checkLines 0 ({ begun0 0 with lines := [.fin false 1 200] }).result ∧ some true ∉ checkLines 0 (begun0 0).result ∧
    (let b := { begun0 0 with cmd := mma0 }
     let s := inCell (Cell.zero.setMat 0 { Machine.Matrix.zero with begun := [b] })
     s.m.cellRuns 0 0 = true ∧ ((cellOf s c0).mat 0).begun = [b] ∧ isMma b.cmd = true ∧ b.skipped = false ∧
       (envOf s c0).matrixCtrl.getLsbD 0 = true ∧
       (envOf (up (s.m.setReg (fieldBase 0 + 0x410) 0)) c0).matrixCtrl.getLsbD 0 = false) := by
  decide +kernel

/-- One block of ones: 32 products of 1.0 by 1.0, and the powers of two that a sum of 2^24 + 1 loses. -/
theorem test_accumulate :
    accumulateBlock 7 0 (List.replicate 32 (.fin false 1 0)) (List.replicate 32 (.fin false 1 0)) 127 127 = 0x42000000 ∧
    accumulateBlock 7 0x4B800000 [.fin false 1 0] [.fin false 1 0] 127 127 = 0x4B800000 ∧
    accumulateBlock 7 0 [.inf false] [.fin false 0 0] 127 127 = 0x7FC00000 := by decide +kernel

/-! ### Witnesses: the vector core -/

def vs : State := inCell vcore

theorem witness_noSceneVector : NoSceneWait vs c0 := noScene_of_none _ _ (by decide +kernel)

theorem witness_VecMay : ((List.range 128).all (fun op => decide (vs.m.cellRuns 0 0 = true ∧ (cellOf vs c0).vec.running = true ∧
    ((cellOf vs c0).vec.waiting = 0 ∨ (cellOf vs c0).vec.waiting = op) ∧ (cellOf vs c0).vec.pc ≤ 24575))) = true := by decide +kernel

/-- A well-formed class R encoding, decided. -/
theorem rFields (r : VRForm) (vb vc rnd imm men : Bool)
    (h : decide (r.rsv = 0 ∧ (vb || decide (r.vb = 0)) = true ∧ (vc || decide (r.vc = 0)) = true ∧ (rnd || decide (r.rnd = 0)) = true ∧
      (imm || decide (r.imm8 = 0)) = true ∧ (men || decide (r.men = 0)) = true ∧ (r.men = 0 → r.mr = 0 ∧ r.mz = 0)) = true) :
    RFields r vb vc rnd imm men := by
  have h := of_decide_eq_true h
  unfold RFields
  cases vb <;> cases vc <;> cases rnd <;> cases imm <;> cases men <;> simp_all

/-- Class R encodings of each shape, masked and not, stochastic rounding among them. -/
theorem witness_VectorArithmetic : RFields { r0 with vb := 31, rnd := 3, men := 1, mr := 7, mz := 1 } true false true false true ∧
    RFields { r0 with vb := 1, vc := 2, rnd := 3 } true true true false true ∧ RFields { r0 with vb := 1 } true false false false true ∧
    RFields { r0 with rnd := 2 } false false true false true ∧ RFields r0 false false false false true ∧ (1#4).toNat ≤ 1 := 
  ⟨rFields _ _ _ _ _ _ (by decide), rFields _ _ _ _ _ _ (by decide), rFields _ _ _ _ _ _ (by decide), rFields _ _ _ _ _ _ (by decide), rFields _ _ _ _ _ _ (by decide), by decide⟩

theorem witness_SpecialInputs : ofFp32 0x7FC00000 = .nan ∧ ofFp32 0xFF800000 = .inf true ∧ (ofFp32 0x80000000).isZero = true ∧
    (ofFp32 0x00000001).isZero = true ∧ ofFp32 0xCF000000 = .fin true (2 ^ 23) 8 ∧ 2 ^ 31 ≤ ((2 ^ 23 : Nat) : Int) * 2 ^ (8 : Int).toNat ∧
    ofFp32 0x3F800000 = .fin false (2 ^ 23) (-23) ∧ ofFp32 0x7F800000 = .inf false := by decide +kernel

theorem witness_VectorCompares : RFields { r0 with vb := 1, sub := 5, vd := 7 } true false false false true ∧
    RFields { r0 with sub := 7, vd := 7 } false false false false true ∧ (7#5).toNat < 8 ∧ (5#3).toNat ≤ 5 := 
  ⟨rFields _ _ _ _ _ _ (by decide), rFields _ _ _ _ _ _ (by decide), by decide, by decide⟩

theorem witness_VectorReductions : RFields { r0 with rnd := 2, sub := 2 } false false (decide ((2#2) ≠ 3)) false true ∧ (2#3).toNat ≤ 2 := 
  ⟨rFields _ _ _ _ _ _ (by decide), by decide⟩

/-- R132's tree: lanes of 2^24, 1 and 1 in the first row sum to 16,777,218 only if 1 and 1 meet first. -/
theorem test_reduction :
    (let k := { vcore with vec := { vcore.vec with v := [(0, 0x4B800000), (2, 0x3F800000), (3, 0x3F800000)] } }
     mget 0 ((after (exec (.vrsum c0 { r0 with vd := 1 }) (inCell k))).m.cell 0 0).vec.v 64) = 0x4B800001 := by decide +kernel

theorem witness_VectorConversions : RFields { r0 with rnd := 3, sub := 1, fmt := 1, men := 1 } false false true false true ∧
    RFields { r0 with sub := 1 } false false false false true ∧ RFields { r0 with rnd := 1 } false false true false true := 
  ⟨rFields _ _ _ _ _ _ (by decide), rFields _ _ _ _ _ _ (by decide), rFields _ _ _ _ _ _ (by decide)⟩

theorem witness_VectorBlocks : RFields { r0 with rnd := 3, sub := 1, imm8 := 255, fmt := 6 } false false true (decide ((1#3) = 1)) false ∧
    RFields { r0 with fmt := 2 } false false true (decide ((0#3) = 1)) false ∧ (2 ≤ (2#4).toNat ∧ (6#4).toNat ≤ 6) ∧
    RFields { r0 with fmt := 8 } false false false false false ∧ RFields { r0 with fmt := 6, imm8 := 0xF0, men := 1 } false false false true true := 
  ⟨rFields _ _ _ _ _ _ (by decide), rFields _ _ _ _ _ _ (by decide), by decide, rFields _ _ _ _ _ _ (by decide), rFields _ _ _ _ _ _ (by decide)⟩

theorem witness_VectorIntegers : RFields { r0 with vb := 3 } true false false false true ∧
    RFields { r0 with imm8 := 63 } false false false true true ∧ (63#8).toNat ≤ 63 ∧
    RFields { r0 with sub := 3, vb := 7, va := 7, vd := 7 } (decide ((3#3).toNat ≤ 3)) false false false true ∧
    RFields { r0 with sub := 6, vd := 7 } (decide ((6#3).toNat ≤ 3)) false false false true := 
  ⟨rFields _ _ _ _ _ _ (by decide), rFields _ _ _ _ _ _ (by decide), by decide, rFields _ _ _ _ _ _ (by decide), rFields _ _ _ _ _ _ (by decide)⟩

/-- The last rows of unit 6 and of unit 8, the widest stride, the last transposed base. -/
theorem witness_VectorLoads : (5 ≤ (5#3).toNat ∧ 3071 < vrow vs c0 { m0 with form := 2, off := 3065 } + 7) ∧
    ({ vcore with xbarParity := 2 }.xbarParity ≥ 2 ∧ vcore.xbarParity ≤ 1) ∧
    (let b := fun (r : VMForm) => vrow vs c0 r
     b { m0 with off := 3068 } = 3068 ∧ 3068 + 3 < unitRows 6 ∧ b { m0 with unit := 8, off := 4092 } = 4092 ∧ 4092 + 3 < unitRows 8 ∧
       0 + 3 * 1023 < unitRows 6 ∧ b { m0 with form := 2, wid := 4, off := 3064 } + 7 ≤ 3071) ∧
    64 * vrow vs c0 { m0 with off := 3068 } + 256 ≤ unitBytes 6 ∧ 8 * (31 : Nat) + 8 ≤ 256 := by decide +kernel

theorem witness_rowsClean : RowClean (cellOf vs c0) 6 3071 ∧ RowClean (cellOf vs c0) 8 4095 := by unfold RowClean; decide +kernel

/-- A change under way with the cell's acknowledgement in: VTIN and VTOUT issued now wait for the release. -/
theorem witness_VectorTokensLate :
    (let s := up ((inCo 3 { working with change := some { change0 1 with asked := [0] } }).setCell 0 0
       { vcore with sc := { Cell.zero.sc with acked := true } })
     (envOf s c0).sceneReq = true ∧ (cellOf s c0).sc.acked = true ∧ (cellOf s c0).vec.waiting = 0 ∧ s.m.cellRuns 0 0 = true) ∧
    (envOf vs c0).sceneReq = false := by decide +kernel

theorem witness_VectorControl :
    (let g := { rigWith [(0xDE, 5), (0xDF, 0x80), (0xDC, 64), (0xDD, 0xC0), (0xDA, 65), (0xDB, 0xC0), (0xD8, 6), (0xD9, 0x80), (0xD6, 7), (0xD7, 0x80)] with
        queues := [(5, [tok0 false]), (6, [tok0 true]), (65, List.replicate 16 (tok0 false))] }
     let s := inCell { vcore with rig := g }
     tokenWaits (envOf s c0) (cellOf s c0) = false ∧ (cellOf s c0).rig.portIn 0xD0 7 = .token (tok0 false) 5 ∧
       (cellOf s c0).rig.portIn 0xD0 4 = .token (tok0 true) 6 ∧ (cellOf s c0).rig.portIn 0xD0 3 = .empty ∧
       (cellOf s c0).rig.portIn 0xD0 0 = .unbound ∧ (cellOf s c0).rig.portOut 0xD0 6 = .queue 64 ∧
       (cellOf s c0).rig.portOut 0xD0 5 = .full ∧ (cellOf s c0).rig.portOut 0xD0 0 = .unbound) := by decide +kernel

theorem witness_VectorFaults :
    (let s := inCell { vcore with vec := { vcore.vec with pc := 24576 } }
     s.m.cellRuns 0 0 = true ∧ (cellOf s c0).vec.running = true ∧ (cellOf s c0).vec.waiting = 0 ∧ 24575 < (cellOf s c0).vec.pc) ∧
    unitRows 6 ≤ vrow vs c0 { m0 with off := 3069 } + 3 ∧
    (let s := inCell { vcore with poison := [memKey 6 0 / 8] }
     (cellOf s c0).rowsBad 6 (vrow s c0 m0) 4 = true ∧ vrow s c0 m0 + 3 < unitRows 6) := by decide +kernel

/-! ### Witnesses: fly engines, the mesh, rigging, scenes, stratum -/

/-- A read of 8 rows of the stratum into unit 0, and a write of 8 rows of unit 0 to the stratum. -/
def descIn : List Byte := toLe (1 + 2 ^ 16 * 8 + 2 ^ 32 + 2 ^ (48 + 128)) 64
def descOut : List Byte := toLe (1 + 2 ^ 16 * 8 + 2 ^ 32 + 2 ^ (48 + 64)) 64

/-- Cell 0's fly engine with one transfer and company 0 over its field. -/
def flying (t : Transfer) (rs : List FlyReq) (ps : List Reply) : State :=
  up ((inCo 2 .zero).setCell 0 0 { core [] with fly := { Fly.zero with transfers := [t], reqs := rs }, replies := ps })

theorem witness_FlyIssue :
    (let s := flying (transfer0 0 descIn) [] []
     s.m.cellRuns 0 0 = true ∧ s.m.coHeld (s.m.coOf 0) = false ∧ s.m.ownTurn 0 0 = true ∧ s.m.pickFly 0 0 = some (transfer0 0 descIn) ∧
       isNear (envOf s c0) (dDst descIn) = true ∧ isNear (envOf s c0) (dSrc descIn) = false ∧ nearOk (dDst descIn) 512 = true) ∧
    (let s := flying (transfer0 0 descOut) [] []
     s.m.pickFly 0 0 = some (transfer0 0 descOut) ∧ ((cellOf s c0).readRows 9 0 0 8).2 = false ∧ isNear (envOf s c0) (dDst descOut) = false ∧
       isNear (envOf s c0) (dSrc descOut) = true ∧ nearOk (dSrc descOut) 512 = true ∧ (cellOf s c0).xbarParity = 0 ∧
       (cellOf s c0).rowsBad 0 0 8 = false ∧ dOp descOut ≠ 3) := by decide +kernel

def flyReq (rd : Bool) : FlyReq := ⟨5, 0, rd, 0, if rd then .read 512 else .write [] [], 1#64 <<< 48, true, false, 0, none⟩
def flyRep (st : Nat) : Reply := ⟨.fly 0 0 5, st, List.replicate 512 0, [], gens0⟩

theorem witness_FlyReply :
    let s := fun rd st => flying (transfer0 0 descIn) [flyReq rd] [flyRep st]
    let good := fun rd st => ((cellOf (s rd st) c0).replies.filter isFlyReply)[0]? = some (flyRep st) ∧
      (s rd st).m.staleReply 0 0 true gens0 = 0 ∧
      (cellOf (s rd st) c0).fly.reqs.find? (fun q => decide (q.id = replyId (flyRep st))) = some (flyReq rd) ∧
      (cellOf (s rd st) c0).fly.transfers.find? (fun t => decide (t.tag = (flyReq rd).tag)) = some (transfer0 0 descIn)
    good true 0 ∧ good false 0 ∧ good true 4 ∧ good true 2 ∧ (transfer0 0 descIn).phase = 0 := by decide +kernel

theorem witness_FlyDone : let t := { transfer0 0 descIn with line := 1 }
    let e := { t with ended := true, kind := 2 }
    (flying t [] []).m.cellRuns 0 0 = true ∧ (cellOf (flying t [] []) c0).fly.transfers.find? (fun x => decide (x.tag = 0)) = some t ∧
      transferDone (cellOf (flying t [] []) c0).fly t = true ∧ transferDone (cellOf (flying e [] []) c0).fly e = true ∧ e.kind ≠ 0 := by
  decide +kernel

/-- A packet of one flit, and one of a bulk write. -/
def pkt (control : Bool) (b : Body) (mx : Nat) : Packet := ⟨false, control, 1, mx, 0, .cell 0 mx, 0, b⟩

/-- The fabric of field 0 on, a packet at an output of router (0, 0). -/
def onMesh (dir : Nat) (ps : List Packet) : State :=
  up { ((base.setField 0 { Field.zero with fabricOn := true })) with routers := [(outKey false 0 0 dir, ps)] }

theorem witness_MeshHops :
    (let p := pkt true (.req (req0 .load)) 2
     let s := onMesh 1 [p]
     s.m.nextPacket (outKey false 0 0 1) = some 0 ∧ s.m.nextRouter 0 0 1 = (1, 0) ∧ s.m.fabricTakes (routerField 1 0) = true) ∧
    (let p := pkt true (.req (req0 .load)) 0
     (onMesh 4 [p]).m.nextPacket (outKey false 0 0 4) = some 0 ∧ (onMesh 4 [p]).m.cellRuns 0 0 = true) ∧
    (let p := pkt true (.rep (flyRep 0)) 0
     (onMesh 4 [p]).m.nextPacket (outKey false 0 0 4) = some 0 ∧ (onMesh 4 [p]).m.fieldOn 0 = true) ∧
    (let w := pkt false (.req (req0 (.write (List.replicate 64 0) []))) 2
     (onMesh 1 [w]).m.nextPacket (outKey false 0 0 1) = some 0 ∧ [w].findIdx? (fun p => !p.control) = some 0) := by decide +kernel

/-- Of nine control packets in the last sixteen slots, the waiting bulk packet goes first (R208). -/
theorem test_bulk_turn :
    (let p := pkt true (.req (req0 .load)) 2
     let w := pkt false (.req (req0 (.write [] []))) 2
     ({ (onMesh 1 [p, w]).m with slots := [(outKey false 0 0 1, List.replicate 9 true)] } : Mod).nextPacket (outKey false 0 0 1) = some 1) := by
  decide +kernel

def inRig (g : Rig) (m : Mod) : State := up (m.setCell 0 0 { Cell.zero with rig := g })

/-- Output 1's slot 0 belongs to queue 64; the eastern cell's input 3 slot 0 enters its queue 48. -/
theorem witness_Tokens :
    (let g := { rigWith [(0x90, 0xC0)] with queues := [(64, [tok0 false])] }
     let m := base.setCell 0 1 { Cell.zero with rig := rigWith [(0x70, 0x80)] }
     let s := inRig g m
     s.m.cellRuns 0 0 = true ∧ mget 0 (cellOf s c0).rig.last 1 / 2 ≠ (s.m.field 0).slots + 1 ∧ s.m.installing 0 = false ∧
       (cellOf s c0).rig.slotOwner 1 (s.m.field 0).slot = some 64 ∧ (cellOf s c0).rig.queue 64 = [tok0 false] ∧
       s.m.neighbour 0 0 1 = some (0, 1) ∧ (s.m.cell 0 1).rig.slotQueue 3 (s.m.field 0).slot = some 48 ∧
       mget 0 (cellOf s c0).rig.spent (creditKey 1 48) < 16 ∧ (s.m.cell 0 1).rig.linkBad = 0) ∧
    (let m := base.setCell 0 1 { Cell.zero with rig := { rigWith [(0x70, 0x80)] with linkBad := 1 } }
     (m.cell 0 1).rig.linkBad = 0 + 1 ∧ (m.cell 0 1).rig.slotQueue 3 (m.field 0).slot = some 48) ∧
    (let g := { Rig.zero with spent := [(creditKey 1 48, 16)], owed := [(creditKey 1 48, 1)] }
     16 ≤ mget 0 (cellOf (inRig g base) c0).rig.spent (creditKey 1 48) ∧ 0 < mget 0 (cellOf (inRig g base) c0).rig.owed (creditKey 1 48)) ∧
    (let g := { rigWith [(0x70, 0x83)] with seam := [(3, [(0, tok0 false)])] }
     mget [] (cellOf (inRig g base) c0).rig.seam 3 = (0, tok0 false) :: [] ∧ (cellOf (inRig g base) c0).rig.slotQueue 3 (2 * 0) = some 51) ∧
    (base.put (rsEn 0) 1).isSet (rsEn 0) = true := by decide +kernel

/-- Steering unit 0 of a kind, with A queue 1, B queue 2, C queue 3, D0 local queue 0, D1 the sink. -/
def steering (kind : Nat) (qs : List (Nat × List Token)) : State :=
  inRig { rigWith [(0x100, BitVec.ofNat 8 kind), (0x101, 1), (0x102, 2), (0x103, 3), (0x105, 0x80)] with queues := qs } base

theorem witness_Steering :
    (let s := steering 1 [(1, [tok0 false]), (3, [tok0 true])]
     let u := (cellOf s c0).rig.steer 0
     s.m.cellRuns 0 0 = true ∧ u.kind = 1 ∧ 0 ∉ (cellOf s c0).rig.stopped ∧ (tok0 true).out.bad = true ∧ (tok0 false).out.bad = false ∧ (cellOf s c0).rig.queue u.a = [tok0 false] ∧ (cellOf s c0).rig.queue u.c = [tok0 true]) ∧
    (let s := steering 1 [(1, [tok0 false]), (3, [tok0 false])]
     let u := (cellOf s c0).rig.steer 0
     u.kind = 1 ∧ (cellOf s c0).rig.queue u.a = [tok0 false] ∧ (cellOf s c0).rig.queue u.c = [tok0 false] ∧
       (128 ≤ u.d1 ∨ ((cellOf s c0).rig.queue (64 + u.d1 % 16)).length < 16) ∧
       (128 ≤ u.d0 ∨ ((cellOf s c0).rig.queue (64 + u.d0 % 16)).length < 16)) ∧
    (let s := steering 2 [(1, [tok0 false]), (2, [tok0 false]), (3, [tok0 false])]
     let u := (cellOf s c0).rig.steer 0
     u.kind = 2 ∧ (cellOf s c0).rig.queue u.c = [tok0 false] ∧ (cellOf s c0).rig.queue u.a = [tok0 false] ∧
       (cellOf s c0).rig.queue u.b = [tok0 false]) ∧
    (let s := steering 3 [(1, [tok0 false]), (2, [tok0 false])]
     let u := (cellOf s c0).rig.steer 0
     u.kind = 3 ∧ u.a ≠ u.b ∧ (cellOf s c0).rig.queue u.a = [tok0 false] ∧ 0 ∉ (cellOf s c0).rig.mergeB) ∧
    (let s := steering 4 [(1, [tok0 false])]
     let u := (cellOf s c0).rig.steer 0
     u.kind = 4 ∧ (cellOf s c0).rig.queue u.a = [tok0 false] ∧ (128 ≤ u.d0 ∨ 128 ≤ u.d1)) := by decide +kernel

theorem witness_SceneControl :
    (0x8001_0000#64).getLsbD 31 = true ∧ (0x8001_0000#64).getLsbD 29 = false ∧ (0x2001_0000#64).getLsbD 29 = true ∧
    ((inCo 3 working).put (scBusy 0) 1).get (scBusy 0) = 1 ∧ (inCo 0 .zero).coState 0 = stEmpty ∧ (inCo 3 working).prompterUp = true ∧
    (inCo 3 working).isSet (cdEn 0) = true ∧ (inCo 3 working).get (scBusy 0) = 0 ∧ (inCo 3 working).hasScene 0 2 = false ∧
    (inCo 3 working).hasScene 0 1 = true ∧ (inCo 2 loaded).coState 0 = stLoaded := by decide +kernel

theorem witness_SceneSteps :
    ((inCo 3 (changing 0)).co 0).change = some (change0 0) ∧ ((inCo 3 (changing 1)).co 0).change = some (change0 1) ∧
    (let m := (inCo 3 (changing 2))
     (m.co 0).change = some (change0 2) ∧ m.isInterval 0 1 = false ∧ m.rigTokens 0 = 0 ∧ (change0 2).forced = false) ∧
    (let m := inCo 3 (changing 3)
     m.present 0 = true ∧ 0 ∈ m.coFields 0 ∧ m.asidesFly 0 = false) ∧
    (change0 4).phase = 4 ∧ (change0 4).cue = none ∧ (inCo 3 (changing 4)).coState 0 ≠ stHeld ∧ (inCo 4 (changing 4)).coState 0 = stHeld ∧
    (inCo 3 (changing 1)).coState 0 = stRunning ∧
    firstCell (((inCo 3 (changing 1)).prodCells 0).filter (fun p => !acknowledged ((inCo 3 (changing 1)).cell p.1 p.2))) = some (0, 0) := by
  decide +kernel

/-- Two fields in the company, the second not asked yet; and the staged plan in place. -/
theorem witness_SceneSteps2 :
    (let m := (inCo 3 (changing 1)).put (cdFx1 0) 1
     m.coFields 0 = [0, 1] ∧ 0 ∉ (change0 1).asked) ∧
    (((inCo 3 (changing 3)).put (scStagedValid 0) 1).put (scStaged 0) 1).holdsStaged 0 1 = true ∧
    { change0 3 with done := [1], useStaged := true }.useStaged = true := by decide +kernel

def chanReq (op : FabOp) : ChanReq := ⟨req0 op, 0, 0⟩

/-- Field 0's stratum in a state, a request at channel 0 (aged, so first whatever row is open). -/
def atChan (st : Nat) (op : FabOp) : Mod := ((inCo 3 working).put (sfState 0) st).setChan 0 0 { Chan.zero with queue := [chanReq op], wbacks := [7] }

theorem witness_Stratum :
    (let m := atChan 3 .load
     0 = m.pickChan 0 0 1 ∧ (m.chan 0 0).queue[0]? = some (chanReq .load) ∧ m.staleReq (req0 .load) = false ∧ m.stratState 0 = ssReady ∧
       (m.chan 0 0).wbacks[0]? = some 7 ∧ m.isSet stScrubEn = true ∧ m.layers = 2 ∧ m.stratBad = [] ∧ m.stratLatent = [] ∧ m.stratOpen = []) ∧
    (atChan 1 .load).get buStep ≤ 7 ∧ 8 ≤ ((atChan 1 .load).put buStep 8).get buStep ∧ (atChan 1 .load).stratState 0 = ssTraining ∧ (atChan 2 .load).stratState 0 = ssFilling ∧ (atChan 1 .load).stratState 0 ≠ ssOff ∧
    (let m := (atChan 3 .load).put (gsCgen 0) 1
     m.staleReq (req0 .load) = true) := by decide +kernel

/-- Worked example 08-1: granules 0x2_468B and 0x2_468C of a slot lie in channels 13 and 10, byte 0x0123_4240. -/
theorem test_interleave :
    (let m := State.reset.m.setReg 0x200000 0x3C5A96E10F7BD284
     m.chanOf 0x12345A40 = 13 ∧ m.chanByte 0x12345A40 = (0, 0x01234240) ∧ m.chanOf (0x2468C * 2048) = 10 ∧
       m.slotByte 13 0 0x01234240 = 0x12345A40) := by decide +kernel

/-! ### Witnesses: ports and Shedin -/

/-- Port 5 up, the one candidate of a static route to device 1 in epoch 0; device 0 injects. -/
def net : Mod := ((((inCo 2 loaded).put (portState 5) 3).put injEn 1).put (sjJob 0) 9).setReg (routeOff false 1) (1 <<< 63 ||| 5)

def frame0 (kind dst src : Nat) (ws : List Word) : Frame :=
  ⟨BitVec.ofNat 64 (kind * 2 ^ 60 + ws.length * 2 ^ 46 + dst * 2 ^ 34 + src * 2 ^ 22), BitVec.ofNat 64 (9 * 2 ^ 16), 0, 0, ws, true, 0⟩

/-- A frame with its CRC. -/
def sealed (fr : Frame) : Frame := { fr with w3 := fr.w3 ||| BitVec.ofNat 64 ((frameCrc fr).toNat * 2 ^ 32) }

theorem routesTo_static (m : Mod) (fr : Frame) (p : Nat) (h : bits (m.routeEntry (fEpoch fr) (fDst fr)) 62 61 = 0)
    (h' : (m.liveCands (m.routeEntry (fEpoch fr) (fDst fr))).head? = some p) : RoutesTo m fr p := by
  intro x y; simp [Mod.routeOf, Mod.pickPort, h, h']

def frA : Frame := sealed (frame0 6 0 1 [7])
def frB : Frame := sealed { frame0 6 0 1 [7] with w3 := BitVec.ofNat 64 (511 * 2 ^ 22) }

theorem witness_LinkFrames : net.portUp 5 = true ∧ frA.fecOk = true ∧ bits frA.w3 63 32 = (frameCrc frA).toNat ∧
    fLinkSeq frA = (net.oport 5).expect % 1024 ∧ (net.oport 5).expect < 1024 ∧
    (fLinkSeq frB + 1024 - (net.oport 5).expect) % 1024 = 511 ∧ bits frB.w3 63 32 = (frameCrc frB).toNat ∧
    bits (frame0 6 0 1 [7]).w3 63 32 ≠ (frameCrc (frame0 6 0 1 [7])).toNat ∧ ackFrames 0 [frame0 6 1 0 [7]] ≠ [] ∧
    Port.zero.failed < 16 ∧ 16 ≤ { Port.zero with failed := 16 }.failed := by
  decide +kernel

theorem witness_PortStates : (∀ st ∈ [1, 2, 3, 4], net.portFitted 5 = true ∧ (net.put (portState 5) st).get (portState 5) = st) ∧
    net.get (portEn 5) = 1 ∧ net.get (portSpare 5) = 0 ∧ net.get (portLanes 5) = 0 ∧ ((net.put (portLanes 5) 4).get (portLanes 5)).testBit 2 = true ∧
    (net.get (portLanes 5)).testBit 2 = false ∧ shas net.fuses.spareLanes 5 = false ∧
    shas { net with fuses := { Fuses.nominal with spareLanes := [5] } }.fuses.spareLanes 5 = true ∧ net.fewLanes 5 = false ∧
    net.ghost = false ∧ (net.put rtGhost 1).ghost = true ∧ (3#17).getLsbD 0 = true ∧ (3#17).getLsbD 1 = true ∧ net.pfAll = true := by
  decide +kernel

def atIngress (m : Mod) (fr : Frame) : Mod := m.setOport 5 { m.oport 5 with ingress := [fr] }

/-- In transit, at the last hop and dropped there, malformed, a reply to nobody, a request here, its duplicate. -/
theorem witness_PacketArrival :
    (let fr := frame0 1 1 2 []
     let fr := setW0 fr 52 46 1
     let m := atIngress net fr
     m.portFitted 5 = true ∧ (m.oport 5).ingress = fr :: [] ∧ m.isSet shDraining = false ∧ frameOk fr = true ∧ isGroup fr = false ∧
       fDst fr ≠ m.get devNum ∧ fHops fr < 30 ∧ fEpoch fr = m.epoch ∧ m.liveRouters (optRouters 5) ≠ [] ∧
       bits (m.routeEntry (fEpoch fr) (fDst fr)) 62 61 = 0 ∧ (m.liveCands (m.routeEntry (fEpoch fr) (fDst fr))).head? = some 5 ∧
       (m.oport 5).egress = [] ∧ (m.oport 5).unacked.length < 1023) ∧
    (let fr := setW0 (frame0 7 1 2 []) 57 53 30
     frameOk fr = true ∧ fHops fr = 30 ∧ 7 ≤ fKind fr ∧ fHops (setW0 fr 57 53 29) < 30) ∧
    (let fr := setW0 (setW0 (frame0 1 1 2 []) 52 46 1) 59 59 1
     frameOk fr = true ∧ fEpoch fr ≠ net.epoch ∧ { net with retired := true }.retired = true ∧ net.retired = false) ∧
    (frameOk (frame0 13 0 0 []) = false ∧ isGroup (frame0 13 0 0 []) = true) ∧
    (let fr := setW0 (frame0 1 0 1 []) 52 46 1
     let m := { atIngress (net.put (sfState 0) 3) fr with peers := [(1, 1)] }
     fDst fr = m.get devNum ∧ fKind fr ≤ 3 ∧ mget 0 m.peers (fSrc fr) = fDgen fr + 1 ∧ (m.flow 1 0).held = [] ∧
       isDup (m.flow 1 0) (fSeq fr) = false ∧ m.isSet injEn = true ∧ m.jobCo (fJob fr) = some 0 ∧ m.checkRemote 0 (m.frameReq fr 0) = 0) ∧
    (isDup { Flow.zero with mark := 1 } (fSeq (frame0 6 0 1 [7])) = true) := by decide +kernel

def tag0 (dead : Bool) : TagUse := ⟨{ req0 .load with owner := .scalar 0 1 3 }, 5, 0, 0, dead⟩

theorem witness_Replies :
    (let fr := frame0 6 0 1 [7]
     let m := { atIngress net fr with tags := [(0, some (tag0 false))] }
     frameOk fr = true ∧ (4 ≤ fKind fr ∧ fKind fr ≤ 7) ∧ m.tag (fTag fr) = some (tag0 false) ∧
       ownerCell (tag0 false).req.owner = some (0, 1) ∧ m.tagWait = [] ∧ m.isSet injEn = true ∧
       (tag0 false).dead = false ∧ (m.attach (optRouters 5) 1).isSome = true ∧ (m.attach [] 1).isNone = true) := by decide +kernel

theorem witness_ShedinTimers :
    (let m := net.setFlow 1 0 { Flow.zero with mark := 3 }
     m.mayInject = true ∧ (m.put injEn 0).mayInject = false ∧ (m.flow 1 0).mark ≠ (m.flow 1 0).told ∧ m.epoch = false ∧ bits (m.routeEntry false 1) 62 61 = 0 ∧
       (m.liveCands (m.routeEntry false 1)).head? = some 5) ∧
    ((atIngress net (frame0 6 0 1 [7])).oport 5).ingress[0]? = some (frame0 6 0 1 [7]) ∧
    ({ net with linked := true } : Mod).linked = true ∧ (net.put shDraining 1).isSet shDraining = true ∧
    (let r := frame0 6 1 0 [7]
     let b := frame0 9 0 2 [r.w0, r.w1, r.w2, r.w3, 7]
     let fr := setW0 (setW0 (bounced b) 59 59 (if fEpoch b then 1 else 0)) 57 53 0
     isSequenced fr = true ∧ fDst fr = 1 ∧ fEpoch fr = net.epoch ∧ fSeq fr = 0 ∧ net.portFitted 5 = true ∧
       (fSeq fr + 65536 - (net.flow (fDst fr) (fTc fr)).acked) % 65536 < 32768 ∧ (net.flow (fDst fr) (fTc fr)).held = []) := by
  decide +kernel

theorem witness_flowRoute : ∀ fr : Frame, fDst fr = 1 → fEpoch fr = net.epoch → RoutesTo net fr 5 := by
  intro fr h h'
  have e : net.epoch = false := by decide +kernel
  apply routesTo_static <;> rw [h, h', e] <;> decide +kernel

theorem witness_Epochs :
    net.pfAll = true ∧ (true ≠ net.epoch) ∧ net.isSet shDraining = false ∧ bits (5#64) 62 61 ≠ 3 ∧
      (∀ i, i < 4 → bits (5#64) (6 * i + 5) (6 * i) ≤ 47) ∧ net.tagWait = [] ∧ (∀ e ∈ net.flows, e.2.held = []) ∧ (4#32).getLsbD 2 = true ∧ (1#32).getLsbD 2 = false ∧
      (net.put shDraining 1).pfAll = true := by decide +kernel

/-- Group 3: a chorus or multicast group of job 9, homed here. -/
def grouped (lo : Word) : Mod := (net.setReg (groupOff 3) lo).setReg (groupOff 3 + 8) (9#64 <<< 48)

def round0 (sent : Nat) (held : List Chunk8) : Round := ⟨some ⟨0, 1, false, 3, 0, 0, 0, 0, 1024, 0⟩, 0, 2, held, sent, sent, 0, 0, false, 0, 0⟩

theorem witness_Groups :
    (let m := inCo 3 working
     m.prompterUp = true ∧ m.isSet (cdEn 0) = true ∧ (m.co 0).chorus.length < 64) ∧
    (64 ≤ ({ working with chorus := List.replicate 64 0 } : Company).chorus.length) ∧
    (let m := inCo 3 { working with chorus := [1] }
     (m.co 0).chorus = 1 :: [] ∧ (1 : Nat) % 64 ≠ 0) := by decide +kernel

/-- A good descriptor of a multicast of one chunk, at offset 0 of the company's stratum. -/
def gdesc : List Byte := toLe (1 + 3 * 2 ^ 16 + 2 ^ (64 + 16) + 512 * 2 ^ (8 * 24)) 64

theorem witness_GroupStart :
    (let m := { (grouped (11#64 <<< 60)).put (sfState 0) 3 with strat := writeBytes [] 0 gdesc }
     let m := m.setCo 0 { loaded with chorus := [0] }
     (m.co 0).chorus = 0 :: [] ∧ (m.coRead 0 0 64).2 = some gdesc ∧ ((m.coRead 0 0 64).1).descBad 0 gdesc = false ∧
       (parseDesc 0 gdesc).group = 3 ∧ m.gValid 3 = true ∧ m.gJob 3 = m.get (sjJob 0) ∧ m.gChorus 3 = false ∧ m.gRoot 3 = true ∧
       m.round 3 = none ∧ m.gJob 4 ≠ 9 ∧ m.gValid 4 = false ∧ (m.coRead 0 64 64).2.isSome = true ∧
       ((m.put (sfState 0) 0).coRead 0 0 64).2 = none) := by decide +kernel

theorem witness_Rounds :
    (let m := ((grouped (9#64 <<< 60 ||| 32)).put (sfState 0) 3).setRound 3 (some (round0 0 []))
     m.round 3 = some (round0 0 []) ∧ m.mayInject = true ∧ m.gChorus 3 = false ∧ m.gRoot 3 = true ∧ 0 + 1 < (round0 0 []).chunks ∧
       (m.coRead 0 0 512).2.isSome = true ∧ (m.coRead 0 0 512).1.gMember 3 = false ∧ (m.coRead 0 0 512).1.gChildren 3 = [5] ∧
       ((m.coRead 0 0 512).1).portUp 5 = true) ∧
    (let x : Chunk8 := ⟨5, 0, List.replicate 512 0⟩
     let r := { round0 0 [x] with desc := none }
     let m := (grouped (12#64 <<< 60 ||| 5 <<< 54 ||| 32)).setRound 3 (some r)
     m.round 3 = some r ∧ m.mayInject = true ∧ r.fail = 0 ∧ 0 < r.chunks ∧ m.gChorus 3 = true ∧ m.gMember 3 = false ∧ m.gRoot 3 = false ∧ heldDown r 0 = none ∧
       m.inputs 3 0 r none = some [List.replicate 512 0] ∧ (combine (m.gFmt 3) (m.gRedop 3) 1 [List.replicate 512 0]).isSome = true ∧
       m.gParent 3 = 5) := by decide +kernel

theorem witness_Holds :
    (let m := inCo 4 working
     m.prompterUp = true ∧ m.coState 0 = stHeld ∧ (m.co 0).reset = none ∧ (m.co 0).heldAt = false ∧ (m.co 0).change = none ∧
       (∀ p ∈ m.prodCells 0, (∀ a ∈ (m.cell p.1 p.2).sc.outst, a.kept = false) ∧ ∀ q ∈ (m.cell p.1 p.2).fly.reqs, q.kept = false)) ∧
    (inCo 0 .zero).coState 0 = stEmpty ∧ bits (9#64) 15 0 ≠ (inCo 0 .zero).get (sjJob 0) ∧ (inCo 0 .zero).jobTaken 0 9 = false ∧
    ((inCo 0 .zero).put (sjJob 1) 9).jobTaken 0 9 = true ∧ (inCo 2 loaded).coState 0 ≠ stHeld := by decide +kernel

/-! ### Witnesses: rings, cues, runs -/

/-- Company 0 with ring 0 and completion ring 0 enabled. -/
def inRing (st : Nat) (x : Company) : Mod := (((inCo st x).put (cmdEn 0 0) 1).put (cplEn 0 0) 1).put (cbEn 0) 1

def withCue (st : Nat) (x : Company) (r : CmdRing) : State := up (inRing st { x with rings := [(0, r)] })

def cueOf0 (op : Nat) (opnds : Nat) : List Byte := toLe (op + opnds * 2 ^ 128) 64

/-- A cue that ring 0 of company 0 may begin. -/
def fresh (st : Nat) (x : Company) (b : List Byte) : State := withCue st x { CmdRing.zero with cues := [⟨0, some b⟩] }

/-- A cue that it has begun. -/
def begunCue (st : Nat) (x : Company) (b : List Byte) : State := withCue st x { CmdRing.zero with cur := some ⟨0, some b⟩ }

/-- The module with the cue begun. -/
def cueMod (s : State) (op : Nat) : Mod := ((s.m.cueOf 0 0 op).map (·.2.2)).getD s.m

/-- A cue at ring 0, decided. -/
def CueHere (s : State) (op : Nat) (new : Bool) (b : List Byte) : Prop :=
  s.m.ghost = false ∧ (s.m.cueOf 0 0 op).map (fun x => (x.1, x.2.1.bytes)) = some (new, some b)

theorem cueAt_of (s : State) (op : Nat) (new : Bool) (b : List Byte) (h : CueHere s op new b) : CueAt s 0 0 op new b (cueMod s op) := by
  obtain ⟨h1, h2⟩ := h
  refine ⟨h1, ?_⟩
  unfold cueMod
  cases h3 : s.m.cueOf 0 0 op with
  | none => rw [h3] at h2; cases h2
  | some x =>
    obtain ⟨a, q, m⟩ := x
    rw [h3] at h2
    simp only [Option.map_some, Option.some.injEq, Prod.mk.injEq] at h2
    exact ⟨q, by simp [h2.1], h2.2⟩

theorem witness_Polls :
    (let m := inRing 2 loaded
     m.isSet (cbEn 0) = true ∧ m.hostUp 0 = true ∧ m.ghost = false ∧ (m.co 0).polls < 4 ∧ m.isSet (cmdEn 0 0) = true ∧
       (∀ k, k < 64 → (m.ring 0 k).overrun = none ∧ (m.ring 0 k).cues = [] ∧ (k ≠ 0 → m.isSet (cmdEn 0 k) = false)) ∧
       0 < Nat.min 5 8 - ((m.ring 0 0).fetched + 2 ^ 32 - m.get (cmdHead 0 0)) % 2 ^ 32 ∧ 5 ≤ 2 ^ m.get (cmdSize 0 0)) ∧
    (let x := { loaded with polls := 1, stale := 1, pollFails := 15 }
     0 < x.stale ∧ 0 < x.polls ∧ 15 ≤ x.pollFails) ∧
    (let s := withCue 2 loaded { CmdRing.zero with reads := [(0, 2)], cur := some ⟨0, some (cueOf0 1 0)⟩ }
     (s.m.ring 0 0).reads = (0, 2) :: [] ∧ (s.m.ring 0 0).cur.isSome = true ∧ (cueOf0 1 0).length = 64 ∧ (s.m.ring 0 0).dest = 0 ∧
       (s.m.ring 0 0).cues = []) ∧
    (let m := (inRing 2 { loaded with cpls := [(0, ⟨0, 0, 1⟩)], evMsg := true }).put (cplVector 0 0) 5
     0 < (m.cpl 0 0).unsignalled ∧ m.get (cplVector 0 0) ≠ 0x7F ∧ m.hostUp 0 = true ∧ (m.co 0).evMsg = true ∧
       m.vectorMasked (msixKey 0 0 5) = true ∧ { m with msixCtl := [(msixKey 0 0 5, 7)] }.vectorMasked (msixKey 0 0 5) = false) ∧
    (let b := cueOf0 1 0
     let m := inRing 2 { loaded with rings := [(0, { CmdRing.zero with cur := some ⟨0, some b⟩ })] }
     (m.ring 0 0).cur = some ⟨0, some b⟩ ∧ (m.ring 0 0).dest = 0 ∧ (m.ring 0 0).cues = [] ∧ (m.ring 0 0).overrun = none ∧ m.hostUp 0 = true) := by
  decide +kernel

theorem witness_Nop : CueHere (fresh 2 loaded (cueOf0 1 1)) 1 true (cueOf0 1 1) ∧ cueBad (cueOf0 1 1) [] = true ∧
    CueHere (begunCue 2 loaded (cueOf0 1 0)) 1 false (cueOf0 1 0) ∧ cueBad (cueOf0 1 0) [] = false := by
  unfold CueHere; decide +kernel

/-- LOAD of 256 bytes at 0x1000, of nothing at 0, and with a reserved bit. -/
theorem witness_Load :
    (let b := cueOf0 2 (0x1000 + 256 * 2 ^ 64)
     let s := fresh 0 .zero b
     CueHere s 2 true b ∧ loadBad b = false ∧ loadAddr b = false ∧ (cueMod s 2).coState 0 = 0 ∧
       ((cueMod s 2).checkLoad 0 ⟨List.replicate 256 0, [], true⟩ 256 0).isSome = true ∧ CueHere (fresh 2 loaded b) 2 true b) ∧
    loadBad (cueOf0 2 (2 ^ 300)) = true ∧ loadBad (cueOf0 2 0) = false ∧ le (cueOf0 2 0) 0x10 8 = 0 := by
  unfold CueHere; decide +kernel

theorem witness_LoadFinish :
    (let x : Loading := ⟨0, 0, [], []⟩
     let s := withCue 1 { Company.zero with loading := some x } { CmdRing.zero with cur := some ⟨0, some (cueOf0 2 0)⟩ }
     (s.m.co 0).loading = some x ∧ s.m.prompterUp = true ∧ s.m.rehearses 0 = false ∧ (s.m.co 0).reset = none ∧
       (sectsOf x.image).find? (fun z => decide ((crc32 (z.data [])).toNat ≠ z.crc)) = none) := by decide +kernel

def sceneB : List Byte := cueOf0 5 (1 + 2 ^ 16 + 2 ^ 24)

theorem witness_Unload :
    (let b := cueOf0 4 0
     CueHere (fresh 2 loaded b) 4 true b ∧ cueBad b [] = false ∧ (cueMod (fresh 2 loaded b) 4).refersElse 0 0 = false ∧
       ((inRing 2 { loaded with rings := [(1, { CmdRing.zero with cur := some ⟨0, some sceneB⟩ })] }).refersElse 0 0 = true) ∧ (cueMod (fresh 2 loaded b) 4).coState 0 = 2 ∧
       CueHere (begunCue 5 { loaded with unloading := some 0 } b) 4 false b ∧
       ((cueMod (begunCue 5 { loaded with unloading := some 0 } b) 4).co 0).unloading = some 0 ∧
       ((cueMod (begunCue 5 { loaded with unloading := some 0 } b) 4).release 0).hostUp 0 = true ∧
       CueHere (fresh 5 { loaded with unloading := some 1 } b) 4 true b ∧ CueHere (fresh 0 .zero b) 4 true b ∧
       CueHere (fresh 3 working b) 4 true b) := by unfold CueHere; decide +kernel

def sceneC : List Byte := cueOf0 5 (2 + 2 ^ 16 + 2 ^ 24)

/-- SCENE to scene 1 and to scene 2, which is absent: with a job, with a change under way, with none. -/
theorem witness_SceneCue : CueHere (fresh 3 working sceneB) 5 true sceneB ∧ cueBad sceneB [(0, 4)] = cueBad sceneC [(0, 4)] ∧
    le sceneB 0x11 1 ≤ 1 ∧ 1 ≤ le sceneB 0x12 1 ∧ 1 ≤ le sceneB 0x13 1 ∧ (cueMod (fresh 3 working sceneB) 5).changeOf 0 0 = false ∧
    (cueMod (fresh 3 working sceneB) 5).hasJob 0 = true ∧ (cueMod (fresh 3 working sceneB) 5).hasScene 0 1 = true ∧
    CueHere (fresh 3 working sceneC) 5 true sceneC ∧ (cueMod (fresh 3 working sceneC) 5).hasScene 0 2 = false ∧
    CueHere (fresh 2 loaded sceneB) 5 true sceneB ∧ (cueMod (fresh 2 loaded sceneB) 5).hasJob 0 = false ∧
    CueHere (fresh 3 (changing 2) sceneB) 5 true sceneB ∧ (cueMod (fresh 3 (changing 2) sceneB) 5).changeOf 0 0 = false := by
  unfold CueHere; decide +kernel

def waitB (k idx : Nat) : List Byte := cueOf0 7 (k + idx * 2 ^ 32)

/-- WAIT for ring 1: reached, not reached with the ring enabled, with it disabled and idle or at a cue; for its own ring. -/
theorem witness_WaitCue :
    (let en := fun (s : State) => { s with m := (s.m.put (cmdEn 0 1) 1).put (cmdHead 0 1) 5 }
     let s := en (fresh 2 loaded (waitB 1 4))
     CueHere s 7 true (waitB 1 4) ∧ cueBad (waitB 1 4) [(0, 1), (4, 4)] = false ∧ le (waitB 1 4) 0x10 1 ≤ 63 ∧
       (cueMod s 7).isSet (cmdEn 0 1) = true ∧ ((cueMod s 7).get (cmdHead 0 1) + 2 ^ 32 - le (waitB 1 4) 0x14 4) % 2 ^ 32 = 1) ∧
    (let s := { (fresh 2 loaded (waitB 1 5)) with m := (fresh 2 loaded (waitB 1 5)).m.put (cmdEn 0 1) 1 }
     CueHere s 7 true (waitB 1 5) ∧ ((cueMod s 7).get (cmdHead 0 1) + 2 ^ 32 - le (waitB 1 5) 0x14 4) % 2 ^ 32 = 2 ^ 32 - 5 ∧
       (cueMod s 7).isSet (cmdEn 0 1) = true) ∧
    (let s := begunCue 2 loaded (waitB 1 5)
     CueHere s 7 false (waitB 1 5) ∧ (cueMod s 7).isSet (cmdEn 0 1) = false ∧ ((cueMod s 7).ring 0 1).cur = none) ∧
    (CueHere (fresh 2 loaded (waitB 0 5)) 7 true (waitB 0 5) ∧ le (waitB 0 5) 0x10 1 = 0 ∧
      CueHere (fresh 2 loaded (waitB 1 5)) 7 true (waitB 1 5) ∧ (cueMod (fresh 2 loaded (waitB 1 5)) 7).isSet (cmdEn 0 1) = false) := by
  unfold CueHere; decide +kernel

def stopped : Company := { working with reset := some ⟨1, 0x307, 0, true, false, false, 0⟩ }

/-- A SCENE cue waits while a change of another ring is under way, not while a reset stops the job. -/
theorem witness_SceneCueWaits :
    (let s := { (begunCue 3 working sceneB) with m := (begunCue 3 working sceneB).m.put (scBusy 0) 1 }
     CueHere s 5 false sceneB ∧ (cueMod s 5).hasJob 0 = true ∧ (cueMod s 5).get (scBusy 0) = 1 ∧ (cueMod s 5).changeOf 0 0 = false) ∧
    (cueMod (begunCue 3 stopped sceneB) 5).get (scBusy 0) = 0 ∧ (cueMod (begunCue 3 stopped sceneB) 5).hasJob 0 = true := by
  unfold CueHere; decide +kernel

def runB (s0 : Nat) : List Byte := cueOf0 3 s0

/-- RUN with START = 0 and 1, which is no interval; without a production, with a job, in UNLOADING. -/
theorem witness_RunCue :
    (∀ k ∈ [0, 1], CueHere (fresh 2 loaded (runB k)) 3 true (runB k) ∧ cueBad (runB k) [(0, 1), (2, 2), (16, 32)] = false ∧
      le (runB k) 0x10 1 = k ∧ (cueMod (fresh 2 loaded (runB k)) 3).coState 0 = 2 ∧
      ((cueMod (fresh 2 loaded (runB k)) 3).co 0).prod = some prod0 ∧ (cueMod (fresh 2 loaded (runB k)) 3).get (reloadNeeded 0) = 0) ∧
    (cueMod (fresh 2 loaded (runB 1)) 3).isInterval 0 1 = false := by
  unfold CueHere; decide +kernel

theorem witness_RunCue2 : (cueMod (fresh 2 loaded (runB 2)) 3).isInterval 0 2 = false ∧
    CueHere (fresh 0 .zero (runB 0)) 3 true (runB 0) ∧ ((cueMod (fresh 0 .zero (runB 0)) 3).co 0).prod = none ∧
    CueHere (fresh 3 working (runB 0)) 3 true (runB 0) ∧ (cueMod (fresh 3 working (runB 0)) 3).coState 0 = 3 ∧
    CueHere (fresh 5 loaded (runB 0)) 3 true (runB 0) ∧ (cueMod (fresh 5 loaded (runB 0)) 3).coState 0 = 5 ∧
    (let s := { (fresh 2 loaded (runB 0)) with m := (fresh 2 loaded (runB 0)).m.put (reloadNeeded 0) 1 }
     CueHere s 3 true (runB 0) ∧ (cueMod s 3).coState 0 = 2 ∧ (cueMod s 3).get (reloadNeeded 0) = 1) := by
  unfold CueHere; decide +kernel

def prod1 : Production := { prod0 with scenes := [(true, 0), (true, 4)] }

def atInterval : State := fresh 2 { Company.zero with prod := some prod1 } (runB 1)

/-- RUN at an interval other than scene 0. -/
theorem witness_RunInterval : CueHere atInterval 3 true (runB 1) ∧ (cueMod atInterval 3).coState 0 = 2 ∧
    (cueMod atInterval 3).isInterval 0 1 = true ∧ (cueMod atInterval 3).get (reloadNeeded 0) = 0 ∧
    (loaded.enc.serving = false ∧ ({ loaded with enc := { Encore.zero with serving := true } } : Company).enc.serving = true) := by
  unfold CueHere; decide +kernel

/-- STOP at an interval and now, with a job, without one, begun. -/
theorem witness_Stops :
    (∀ k ∈ [0, 1], cueBad (cueOf0 6 k) [(0, 1)] = false ∧ le (cueOf0 6 k) 0x10 1 = k ∧
      CueHere (fresh 3 working (cueOf0 6 k)) 6 true (cueOf0 6 k) ∧ CueHere (fresh 2 loaded (cueOf0 6 k)) 6 true (cueOf0 6 k) ∧
      CueHere (begunCue 2 loaded (cueOf0 6 k)) 6 false (cueOf0 6 k) ∧
      (cueMod (fresh 3 working (cueOf0 6 k)) 6).hasJob 0 = true ∧ (cueMod (fresh 2 loaded (cueOf0 6 k)) 6).hasJob 0 = false ∧
      (cueMod (begunCue 2 loaded (cueOf0 6 k)) 6).hasJob 0 = false) ∧
    (cueMod (fresh 3 working (cueOf0 6 1)) 6).allEnded 0 = false ∧ ((cueMod (fresh 3 working (cueOf0 6 1)) 6).co 0).reset = none ∧
    ((cueMod (fresh 3 working (cueOf0 6 1)) 6).co 0).change = none := by
  unfold CueHere; decide +kernel

theorem witness_JobEnd :
    (let m := (inRing 3 working).setCell 0 0 { Cell.zero with sc := { Cell.zero.sc with ended := true } }
     m.coState 0 = 3 ∧ (m.co 0).reset = none ∧ (m.co 0).change = none ∧ (m.co 0).job = some job0 ∧ m.allEnded 0 = true ∧
       m.get (esStaging 0) = 0 ∧ m.get (esSuspect 0) = 0 ∧ m.hostUp 0 = true) ∧
    (let m := inRing 3 (changing 6)
     (m.co 0).change = some (change0 6) ∧ (change0 6).phase = 6 ∧ (m.co 0).reset = none ∧ m.accessesOut 0 = false ∧ (m.co 0).job = some job0 ∧
       m.hostUp 0 = true) ∧
    (begunCue 3 working (cueOf0 3 (9 * 2 ^ 16))).m.runLimit 0 ≠ 0 := by decide +kernel

/-- A device whose companies, fields and cells are as built and whose physical function's accesses reach it. -/
theorem witness_RingRegisters :
    (let m := inRing 2 loaded
     m.pfAll = true ∧ m.isSet (cmdEn 0 0) = true ∧ m.isSet (cmdEn 0 1) = false ∧ m.isSet (ctReady 0) = true ∧
       0 ≤ m.get (cbSpan 0) ∧ m.isSet (cplEn 0 0) = true ∧ m.isSet (cplEn 0 1) = false ∧ m.get (cmdCpl 0 0) = 0 ∧
       bits (0#64) 3 0 = 0 ∧ (∀ r, r < 64 → m.isSet (cmdEn 0 r) = true ∨ m.isSet (cplEn 0 r) = true → r / 4 ≤ 0) ∧
       bits (6#64 <<< 19) 23 19 = 6) ∧
    (let m := (inRing 2 loaded).put (cplEn 0 4) 1
     (∃ r, r < 64 ∧ (m.isSet (cmdEn 0 r) = true ∨ m.isSet (cplEn 0 r) = true) ∧ bits (0#64) 3 0 < r / 4)) ∧
    (let m := (inRing 2 loaded).put (cmdEn 0 0) 0
     m.cplBusy 0 0 = false ∧ ∀ k, k < 64 → m.isSet (cmdEn 0 k) = false ∨ m.get (cmdCpl 0 k) ≠ 0) ∧
    (let m := (inRing 3 working).put (hwinEn 0 0) 1
     m.isSet (hwinEn 0 0) = true ∧ m.hasJob 0 = true ∧ m.isSet (hwinEn 0 1) = false) := by
  refine ⟨by decide +kernel, ⟨4, by decide +kernel⟩, by decide +kernel, by decide +kernel⟩

/-- A window of one page, and requests of a core for it: a store, a read, and one outside. -/
def windowed (q : Req) : Mod :=
  let m := ((inRing 3 working).put (hwinEn 0 0) 1).put (hwinPages 0 0) 1
  { m with toHost := [(0, [⟨q, 0, 0⟩])] }

theorem witness_HostWindow :
    (∀ op ∈ [.store 5, .read 8], let r := { req0 op with addr := 3#64 <<< 62 }
     let m := windowed r
     (mget [] m.toHost 0).length = 1 ∧ r.co < 16 ∧ (m.nextHost 0).map (·.1) = some 0 ∧ m.staleReq r = false ∧
       ownerCell r.owner = some (0, 1) ∧ (m.attach (hostRouters 0) ((cellRouter 0 1).1 + (cellRouter 0 1).2)).isSome = true ∧
       m.hostMapped r.co (faOff r.addr) (opBytes r.op) = true ∧ m.hostUp r.co = true) ∧
    (let r := { req0 (.read 8) with addr := 3#64 <<< 62 ||| 0x1000 }
     (windowed r).staleReq r = false ∧ (windowed r).hostMapped r.co (faOff r.addr) (opBytes r.op) = false) := by
  decide +kernel

theorem witness_Perst : shas (inRing 3 working).perstLow 0 = false ∧ (inRing 3 working).ghost = false ∧
    (inRing 3 working).cosOf 0 (fun _ => true) = [0] ∧ (inRing 3 working).hasJob 0 = true ∧ ((inRing 3 working).co 0).reset = none ∧
    (base.cosOf 0 (fun c => decide ((1 : Nat) - 1 < base.get (cdFunc c) ∧ base.get (cdFunc c) ≤ mget 0 base.numVfs 0)) = []) := by
  decide +kernel
/-! ### Witnesses: companies and register writes -/

/-- A module with bring-up done, field 0 on, company 0 absent. -/
def ready9 : Mod := base.put buStep 9

/-- COMPANY_DEF: EN, every field of the block from (0, 0) to (0, 0), and one whose rows are the wrong way round. -/
theorem witness_Companies :
    ready9.prompterUp = true ∧ ready9.isSet (cdEn 0) = false ∧ ready9.defOk 0 (ready9.defVal 0 (1#64 <<< 63)) = true ∧
    ready9.defOk 0 (ready9.defVal 0 (1#64 <<< 63 ||| 1#64 <<< 28)) = false ∧
    ready9.defVal 0 (1#64 <<< 63 ||| 31#64 <<< 53) = 1#64 <<< 63 ∧ defFields (1#64 <<< 63) ≠ [] ∧
    (inCo 0 .zero).isSet (cdEn 0) = true ∧ (inCo 0 .zero).idleCo 0 = true ∧ (inCo 2 loaded).idleCo 0 = false ∧ (inCo 2 loaded).coFields 0 ≠ [] ∧
    (let m := ((inCo 0 .zero).put (sfState 0) 3).put (fcLock 0) 1
     m.coFields 0 = [0] ∧ ∀ f ∈ m.coFields 0, m.fieldUp f = true) := by decide +kernel

theorem witness_CompanyWrites :
    (let m := inCo 3 working
     bits (0#64) 6 0 ≤ 48 ∧ bits (49#64) 6 0 = 49 ∧ (m.heldGroups 0).length ≤ bits (0#64) 42 32 ∧
       m.sharesFit 0 (m.get (cdPort 0)) 0 0 0 0 = true ∧ m.get injEn = 0 ∧ (m.put injEn 1).get injEn = 1 ∧
       (m.co 0).job = some job0 ∧ (m.co 0).prod = some prod0 ∧ bits (64#64) 39 0 = 64 ∧ job0.range = none) ∧
    (let j := { job0 with range := some (0, 64) }
     ((inCo 3 { working with job := some j }).co 0).job = some j) ∧
    (let m := inCo 0 .zero
     m.coState 0 = 0 ∧ bits (1#64) 1 0 = 1 ∧ shas (m.coFields 0) (bits (1#64) 28 22) = true ∧
       shas (m.coFields 0) (bits (1#64 ||| 1#64 <<< 22) 28 22) = false) := by decide +kernel

/-- A virtual function that is not enabled, one that no company names, one of company 0; BAR2 of the physical function. -/
theorem witness_RegisterWrites : widthOk 0x201 4 = false ∧ widthOk 0x20008 4 = true ∧ base.prompterUp = true ∧ base.vfUp 0 1 = false ∧
    (let m := { (inCo 2 loaded).put (cdFunc 0) 1 with numVfs := [(0, 2)] }
     m.vfUp 0 1 = true ∧ m.vfCo 0 1 = some 0 ∧ m.vfUp 0 2 = true ∧ m.vfCo 0 2 = none) ∧
    base.bar2Up 0 0 = true ∧ shas { base with msixPend := [msixKey 0 0 64] }.msixPend (msixKey 0 0 64) = true := by
  decide +kernel

/-- Reads: Prompter up and being reset, a company bound to a virtual function that is enabled. -/
theorem witness_Reads : base.ghost = false ∧ base.prompterUp = true ∧ { base with prompter := 1 }.get rtRomLoop = 0 ∧
    (∀ f, f < 72 → base.present f = true) ∧ (base.put idFields 1).present 8 = false ∧ (regAt 0x20000).map (·.width) = some 64 ∧
    widthOk 0x20000 3 = false ∧ (base.put idFields 1).portFitted 47 = base.portFitted 47 ∧ base.isSet (cdEn 0) = false := by
  decide +kernel

/-! ### Witnesses: clocks and pins -/

def clk (p : ClkPhase) (n : Nat) : State := { State.reset with sb := { sb0 with phase := p, attempts := n } }

/-- The start-up in each of its phases, with attempts left and without. -/
theorem witness_ClockStartUp :
    (sb0.pwrEn = true ∧ { sb0.straps with clkchk := 7 }.clkchk.val ≠ 0 ∧ sb0.waitVin = false ∧ (clk .off 0).sb.phase = .off ∧ 47000 ≤ (clk .off 0).sb.vin) ∧
    ((clk .idle 7).sb.phase = .idle ∧ (clk .idle 7).sb.attempts < 8 ∧ 8 ≤ (clk .idle 8).sb.attempts) ∧
    (ClkPhase.window .coarse = true ∧ ClkPhase.window (.trim 8) = true ∧ ClkPhase.window .fine = true) ∧
    ((clk (.trim 1) 1).sb.phase = .trim 1 ∧ (clk (.trim 8) 1).sb.phase = .trim (6 + 2) ∧ (clk .fine 1).sb.phase = .fine) ∧
    ((clk .delayWait 1).sb.phase = .delayWait ∧ (clk .pll 1).sb.phase = .pll ∧ (clk .dark 1).sb.phase = .dark ∧ 36000 ≤ sb0.vin) := by
  decide

/-- A window at each boundary of Table 14-2's tolerances, and the trim it leaves. -/
theorem test_coarse_window : ∀ n ∈ [2399, 4001], (after (exec (.clockWindowVerdict (some n)) (clk .coarse 1))).sb.code = 3 := by decide
theorem test_fine_window : ∀ n ∈ [3184, 3216], (after (exec (.clockWindowVerdict (some n)) (clk .fine 1))).sb.phase = .pll := by decide
theorem test_dark_after_eight : (after (exec .clockCheckAttempt (clk .idle 8))).sb.phase = .dark := by decide

theorem witness_ClockSupervision :
    (sb0.phase = .running ∧ base.ghost = false ∧ sb0.trim0 ≤ sb0.trim + 7 ∧ { sb0 with outs := 1 }.outs = 1 ∧
      { sb0 with trim := 120 }.trim + 7 < sb0.trim0 ∧ 0 < sb0.trim ∧ base.refclkOut = false ∧
      { base with refclkOut := true }.refclkOut = true ∧ lastingCause (base.get rtCause) = false ∧ { base with measSrc := 5 }.measSrc = 5) ∧
    (base.present 0 = true ∧ (base.put (sfState 0) 3).stratState 0 = 3 ∧ base.portFitted 0 = true ∧ base.fieldOn 0 = true ∧
      (inCo 2 loaded).coOf 0 = some 0) ∧
    (∀ k ∈ [1, 2, 3], (base.setField 0 { Field.zero with switching := k }).fieldOn 0 = true ∧
      ((base.setField 0 { Field.zero with switching := k }).field 0).switching = k ∧
      ((base.setField 0 { Field.zero with switching := k }).field 0).freq = 40 ∧
      ((base.put (fcSrc 0) 0).setField 0 { Field.zero with switching := k }).get (fcSrc 0) = 0 ∧
      ((base.setField 0 { Field.zero with switching := k }).field 0).switches = []) ∧
    (∀ k ∈ [1, 3, 4], ((base.setField 0 { Field.zero with tries := k }).field 0).tries = k) ∧
    (base.prompterUp = true ∧ base.get frBusy = 0 ∧ (base.put frBusy 1).get frBusy = 1 ∧ base.get fmSrc ≤ 4 ∧
      4 < (base.put fmSrc 5).get fmSrc) := by decide +kernel

theorem witness_PinsAndTap : 36000 ≤ (up base).sb.vin ∧ (up base).m.ghost = false ∧ (up base).m.get rtRomLoop = 0 ∧
    (up base).sb.pwrEn = true ∧ State.reset.sb.pwrEn = false ∧ 36000 ≤ State.reset.sb.vin := by decide +kernel

/-! ### Witnesses: power and input -/

theorem witness_Limits :
    (base.prompterUp = true ∧ base.get modLim = 30000 ∧ base.onFields ≠ []) ∧
    ({ base with power := [(true, [1]), (false, [2])] }.power = (true, [1]) :: [(false, [2])] ∧ base.wave = none ∧ base.present 1 = true ∧
      base.keptDown = false ∧ base.ghost = false ∧ base.get (fsDomain 1) = 0 ∧ base.get (fcFault 1) = 0) ∧
    ({ base with power := [(false, [0])] }.power = (false, [0]) :: [] ∧ base.fieldOn 0 = true ∧ base.wantsPower 0 = false) ∧
    ({ base.put (fsDomain 1) 1 with wave := some (true, [1]) }.get (fsDomain 1) = 1) ∧
    (let m := { base.setField 0 { Field.zero with drainCompute := true } with wave := some (false, [0]) }
     m.wave = some (false, [0]) ∧ m.get (fsDomain 0) = 2 ∧ (m.field 0).drainCompute = true) := by decide +kernel

theorem witness_ControlStep :
    (base.present 0 = true ∧ base.fieldOn 0 = true ∧ base.hardHold = false ∧ base.get (fsSensor 0) = 0 ∧ base.get (fsHard 0) = 0 ∧
      base.ghost = false ∧ base.pEff ≤ 390 ∧ (∀ g ∈ base.onFields, g ≠ 0 → base.pEff ≤ base.pLim g)) ∧
    (let m := base.put (fsHard 0) 1; m.get (fsHard 0) = 1 ∧ m.get (fsSensor 0) = 0 ∧ m.fieldOn 0 = true) ∧
    (∀ x ∈ [0, 9], let m := base.setField 0 { Field.zero with floor := x, vampCtrl := 0x00320032 }
      m.fieldOn 0 = true ∧ m.vampFrac 0 ≠ 0 ∧ (m.field 0).floor = x ∧ m.vampFrac 0 * 10 / 100 = 5) := by decide +kernel

theorem witness_Energy :
    (sb0.phase = .running ∧ (inCo 3 working).isSet (cdEn 0) = true ∧ (inCo 3 working).hasJob 0 = true ∧ base.ghost = false) ∧
    ({ sb0 with vin := 45999 }.vin < 46000 ∧ 60000 < { sb0 with vin := 60001 }.vin) ∧ State.reset.sb.pwrEn = false ∧
    (36000 ≤ 36000 ∧ 35999 < 36000 ∧ State.reset.sb.phase ≠ .running ∧ 47999 < 48000 ∧ 58000 < 58001) ∧ (79 < 80 ∧ 140 < 141) := by
  decide +kernel
/-! ### Witnesses: resets and ghost light -/

def resetOf (level : Nat) (wait : Bool) : CoReset := ⟨level, 0x307, 0, true, wait, false, 0⟩

/-- Company 0 in a state, with a reset in progress. -/
def inReset (st : Nat) (x : Company) (r : CoReset) : Mod := (inRing st { x with reset := some r }).put (gsBusy 0) 1

theorem witness_Resets :
    (let m := inRing 3 working
     m.prompterUp = true ∧ m.isSet (cdEn 0) = true ∧ m.ghost = false ∧ (m.co 0).reset = none ∧ (m.co 0).change = none ∧
       m.hasJob 0 = true ∧ m.get (gsCgen 0) = 0 ∧ shas (m.co 0).gens 1 = false ∧ m.prodCells 0 = [(0, 0)]) ∧
    (shas (inRing 3 { working with gens := [1] } |>.co 0).gens 1 = true) ∧
    (let v : Word := 1#64 <<< 31
     v.getLsbD 31 = true ∧ v.getLsbD 30 = false ∧ v.getLsbD 29 = false) ∧
    (let v : Word := 5#64 <<< 29
     v.getLsbD 31 = true ∧ v.getLsbD 30 = false ∧ v.getLsbD 29 = true ∧ bits v 5 0 = 0 ∧ ((inRing 3 working).ring 0 0).cur = none) ∧
    (∀ op ∈ [2, 4, 7, 3], let x := { working with rings := [(0, { CmdRing.zero with cur := some ⟨0, some (cueOf0 op 0)⟩ })] }
      ((inRing 3 x).ring 0 0).cur = some ⟨0, some (cueOf0 op 0)⟩ ∧ cueOp (cueOf0 op 0) = op ∧ (inRing 3 x).hasJob 0 = true) ∧
    (let m := (inRing 2 loaded).put (sfState 0) 3
     m.coFields 0 = [0] ∧ m.stratState 0 = 3) := by decide +kernel

theorem witness_ResetEnds :
    (let m := inReset 3 working (resetOf 1 false)
     (m.co 0).reset = some (resetOf 1 false) ∧ (m.co 0).change = none ∧ (m.co 0).job.isSome = true) ∧
    (let m := (inReset 3 working (resetOf 3 false)).put (sfState 0) 3
     (m.co 0).reset = some (resetOf 3 false) ∧ m.refilled 0 = true ∧ m.coCells 0 ≠ []) ∧
    (let m := inReset 3 { working with gens := [1] } (resetOf 1 true)
     (m.co 0).reset = some (resetOf 1 true) ∧ (0 : Nat) ∉ m.chipWaits ∧ (m.co 0).gens = [(1#8).toNat] ∧
       (m.get (gsCgen 0) + 1) % 256 = (1#8).toNat) ∧
    (base.present 0 = true ∧ base.pfAll = true ∧ base.fieldOn 0 = true ∧ base.get (erBusy 0) = 0 ∧ base.cellOk 0 0 = true ∧
      base.coOf 0 = none ∧ (∀ u ∈ [0, 7, 9], shas base.egens (egenKey 0 0 u 1) = false ∧ (base.cell 0 0).egen u = 0)) ∧
    ((base.setField 0 { Field.zero with eng := some (0, 9, false) }).field 0).eng = some (0, 9, false) ∧ ((base.setField 0 { Field.zero with eng := some (0, 9, false) }).field 0).engWait = [] ∧
    (let m := { base with tags := [(5, some (tag0 true))] }
     m.tag (5#18).toNat = some (tag0 true) ∧ (tag0 true).dead = true ∧ m.tagWait = []) ∧
    ((base.setField 0 { Field.zero with drainCompute := true }).field 0).drainCompute = true := by decide +kernel

/-- Ghost light with a cause. -/
def dimmed (cause : Nat) : Mod := (base.put rtGhost 1).put rtCause cause

theorem witness_ChipResets :
    (base.prompterUp = true ∧ base.get rtChipBusy = 0 ∧ base.ghost = false ∧ shas base.dgens ((base.get rtDgen + 1) % 256) = false ∧
      (base.put rtChipBusy 1).get rtChipBusy = 1 ∧ base.chipWaits = []) ∧
    (∀ c ∈ [1, 2, 3, 4, 5, 6], (dimmed c).ghost = true ∧ (dimmed c).get rtCause = c ∧ (dimmed c).prompterUp = true ∧
      (dimmed c).get rtChipBusy = 0 ∧ (dimmed c).exitHolds = false ∧ (dimmed c).get buFailStep ≠ 7 ∧ (dimmed c).get rtExitWait = 0) ∧
    (((dimmed 6).put buFailStep 7).get buFailStep = 7 ∧ { dimmed 2 with exitHolds := true }.exitHolds = true ∧
      ((dimmed 3).put rtExitWait 1).get rtExitWait = 1) ∧
    (exitMet sb0 (dimmed 3) = true ∧ exitMet { sb0 with goods := 16 } (dimmed 2) = true ∧ exitMet sb0 (dimmed 2) = false ∧
      (let m := { dimmed 5 with refclkOut := true }; m.refclkOut = true ∧ exitMet { sb0 with goods := 16 } m = true) ∧
      { sb0 with vin := 39999 }.vin < 40000) ∧
    ((dimmed 5).power = [] ∧ (dimmed 5).wave = none ∧ (dimmed 5).refclkOut = false ∧
      { dimmed 5 with power := [(true, [0])] }.power ≠ []) ∧
    (let m := inReset 3 working (resetOf 1 false)
     (m.co 0).reset.map (·.level) = some 1 ∧ m.isJobCell 0 0 0 = true ∧ m.cellOk 0 0 = true ∧ m.get (erBusy 0) = 0) ∧
    (inReset 3 working (resetOf 3 false)).cuesWait 0 = true ∧
    (let m := (inRing 3 working).put (erBusy 0) 1
     m.get (erBusy 0) = 1 ∧ m.coOf 0 = some 0 ∧ m.isSet (cdEn 0) = true ∧ m.cuesWait 0 = false) := by decide +kernel

theorem witness_Watchdog :
    (base.prompterUp = true ∧ sb0.wdogAt = 0 ∧ base.ghost = false ∧ base.now = 0) ∧
    ({ sb0 with wdogAt := 1 }.wdogAt ≠ 0 ∧ base.now < { sb0 with wdogAt := 1 }.wdogAt + 60000000000) ∧
    (let m := { base with now := 60000000001 }; { sb0 with wdogAt := 1 }.wdogAt + 60000000000 ≤ m.now) ∧
    (let m := { base.put rtBooting 1 with prompter := 1, nextImage := 4 }
     m.prompter = 1 ∧ m.nextImage = 4 ∧ m.get rtBooting = 1) := by decide +kernel

/-! ### Witnesses: bring-up, boot, attestation -/

def booting (j : Nat) : Mod := { base with prompter := 1, nextImage := j }

/-- Prompter at image `j`; a boot source that answers, and one that does not. -/
theorem witness_Boot :
    (∀ j ∈ [1, 2, 3], (booting j).prompter = 1 ∧ (booting j).nextImage = j ∧ (booting j).ghost = false) ∧
    (booting 1).bootSrcOk = true ∧ ((booting 1).setReg strapStat.off (5#64 <<< 16)).bootSrcOk = false ∧ base.prompter ≠ 1 := by
  decide +kernel

/-- Bring-up at a step, Prompter up. -/
def atStep (k : Nat) : Mod := base.put buStep k

theorem witness_BringUp :
    (∀ k ∈ [1, 2, 3, 4, 5, 6, 7, 8], (atStep k).get buStep = k ∧ (atStep k).ghost = false ∧ (atStep k).prompter = 2 ∧
      (atStep k).power = [] ∧ (atStep k).wave = none ∧ (atStep k).health.entries = []) ∧
    (let m := { atStep 1 with prompter := 1, nextImage := 4 }; m.get buStep = 1 ∧ m.prompter = 1 ∧ m.nextImage = 4) ∧
    (let m := { atStep 2 with health := { Health.new with entries := [.cell 0 0 23] } }
     m.health.retest = false ∧ m.health.entries = [.cell 0 0 23] ∧ m.get (rowDark 0 0) = 0 ∧ m.get (rowL 0 0) = 24 ∧ m.get (rowSpare 0 0) = 1) ∧
    ({ atStep 3 with power := [(true, [0])] }.power ≠ []) ∧
    ((atStep 4).present 0 = true ∧ (atStep 4).stratState 0 = 0 ∧ (atStep 4).get (rowL 0 0) = 24 ∧
      ((atStep 4).put (rowL 0 0) 3).get (rowL 0 0) = 3 ∧ ((atStep 4).put (rowL 0 0) 3).get (rowDark 0 0) = 0) ∧
    ((atStep 6).portFitted 0 = true ∧ (atStep 6).get (portEn 0) = 1 ∧ (atStep 6).get (portState 0) = 1) ∧
    (((atStep 7).put (portState 0) 2).get (portState 0) = 2 ∧
      (let m := { (atStep 7).put (sfState 0) 1 with stratLost := [0] }; m.stratState 0 = 1 ∧ shas m.stratLost 0 = true)) ∧
    (((atStep 8).put (sfState 0) 2).stratState 0 = 2 ∧ { atStep 8 with quick := true }.quick = true ∧ (atStep 8).quick = false ∧
      { atStep 8 with wave := some (false, [0]) }.wave ≠ none) ∧
    ((atStep 7).onFields.filter (fun f => !(atStep 7).wantsPower f) = [0] ∧ { atStep 2 with health := { Health.new with lastClean := true } }.health.lastClean = true) ∧
    (dimmed 5).ghost = true := by decide +kernel

def ask0 : SpdmReq := ⟨0x12, true, 0, 0, []⟩

def talking (stage : Nat) : Mod := { base.put buStep 9 with spdm := [(4, ⟨stage, []⟩)] }

theorem witness_Attestation :
    (∀ k ∈ [0, 1, 2, 3], (talking k).answers .mctp = true ∧ ((talking k).spdmOf .mctp).stage = k) ∧
    (base.prompterUp = true ∧ base.answers .mctp = false ∧ ask0.version = 0x12 ∧ { ask0 with version := 0x10 }.version ≠ 0x12) ∧
    (ask0.algOk = true ∧ ask0.param1 = 0 ∧ ask0.param2 = 0 ∧ ask0.param1.getLsbD 0 = false ∧ (1#8).getLsbD 0 = true ∧ (7#8).toNat = 6 + 1 ∧
      (6#8).toNat = 5 + 1 ∧ 7 < (8#8).toNat ∧ (8#8) ≠ 0xFF) := by decide +kernel

/-! ### Witnesses: encores, rehearsals, counters -/

/-- A step in an encore. -/
def inEncore (e : Encore) (x : Company) : Mod := (inCo 3 { x with enc := e }).put (esStaging 0) 1

theorem witness_Encores :
    (∀ k ∈ [0, 1, 2, 3, 4], ((inEncore { Encore.zero with phase := k } working).co 0).enc.phase = k ∧
      (inEncore { Encore.zero with phase := k } working).prompterUp = true) ∧
    (let m := (inCo 2 loaded).put (encMode 0) 3
     m.get (encMode 0) = 3 ∧ m.coState 0 = 2 ∧ (m.co 0).enc.phase = 0 ∧ (m.co 0).enc.serving = false ∧ (m.co 0).prod = some prod0 ∧
       1 < prod0.scenes.length ∧ 0 + 64 ≤ prod0.slotBytes ∧ m.prompterUp = true) ∧
    ((inEncore { Encore.zero with phase := 2, serving := true } working).co 0).enc.serving = true ∧
    ((inEncore { Encore.zero with phase := 3, atEnd := true } working).co 0).job.isSome = true ∧
    (let m := inEncore { Encore.zero with phase := 3 } (changing 2)
     (m.co 0).change = some (change0 2) ∧ (change0 2).stopAt = false ∧ m.get (stopPending 0) = 0 ∧ m.wanted 0 = false) ∧
    (let m := (inEncore { Encore.zero with phase := 2 } { working with job := some { job0 with range := some (0, 64) } }).put (encMode 0) 1
     m.get (encMode 0) = 1 ∧ m.outRange 0 = some (0, 64)) ∧
    (let m := (inEncore { Encore.zero with phase := 4 } { working with job := some { job0 with range := some (0, 64) } }).put (encMode 0) 2
     m.get (encMode 0) = 2 ∧ m.outRange 0 = some (0, 64) ∧ (m.coFields 0).length = 1) ∧
    (let e : Encore := { Encore.zero with phase := 3, own := [1] }
     e.own ≠ e.other ∧ e.trips = 0 ∧ e.sameEnd = false ∧ { e with sameEnd := true }.sameEnd = true ∧ e.own = { e with other := [1] }.other ∧
       (let m := inEncore e { working with job := some { job0 with tripped := [(0, 0)] } }
        m.coState 0 = 3 ∧ (m.co 0).reset = none ∧ (m.co 0).job = some { job0 with tripped := [(0, 0)] } ∧ m.get (esStaging 0) = 1)) := by
  decide +kernel

/-- A mark for a rehearsal of field 0, cell 0, at table entry 0. -/
def marked (m : Mod) : Mod := m.setReg (rhOff 0) (1#64 <<< 63)

theorem witness_Rehearsals :
    (let m := marked base
     m.present 0 = true ∧ m.pfAll = true ∧ m.rowOut 0 0 = false ∧ bits (m.reg (rhOff 0)) 63 63 = 1 ∧ bits (m.reg (rhOff 0)) 56 50 = 0 ∧
       bits (m.reg (rhOff 0)) 49 41 / 24 = 0 ∧ (m.field 0).rehearsing = [] ∧ m.get (fcFault 0) = 0 ∧ m.fieldOn 0 = true ∧ m.coOf 0 = none ∧
       bits (m.reg (rhOff 0)) 63 62 = 2) ∧
    (∀ k ∈ [2, 3], (marked (inCo k loaded)).coOf 0 = some 0 ∧ (marked (inCo k loaded)).coState 0 = k ∧ (marked (inCo k loaded)).fieldOn 0 = true) ∧
    ((marked base).put (fsDomain 0) 0).get (fsDomain 0) = 0 ∧
    ((base.setField 0 { Field.zero with rehearsing := [(0, 0)] }).field 0).rehearsing ≠ [] ∧ base.get (fsHard 0) = 0 ∧ base.get (fsSensor 0) = 0 ∧
    (marked (inCo 3 working)).isJobCell 0 0 0 = true := by decide +kernel

theorem witness_Deaths :
    (base.present 0 = true ∧ base.fieldOn 0 = true ∧ base.get (rowL 0 0) = 24 ∧ base.get (rowSpare 0 0) = 1 ∧ base.health.entries.length < 1024 ∧
      mget 0 base.calls (0 * 16 + 0) = 0 ∧ base.rowOut 0 0 = false ∧ (base.put (rowDark 0 0) 1).rowOut 0 0 = true ∧
      (base.put (rowSpare 0 0) 0).get (rowSpare 0 0) = 0) ∧
    (let m := inCo 3 working
     m.coOf 0 = some 0 ∧ m.get (esReplaying 0) = 0 ∧ m.coState 0 = 3 ∧ (m.co 0).reset = none ∧ m.isJobCell 0 0 0 = true) ∧
    (base.cellOk 0 0 = true ∧ shas base.probeFails (probeKey (base.place 0 0) 3) = false ∧
      (let m := { base with probeFails := [probeKey (base.place 0 0) 3] }
       shas m.probeFails (probeKey (m.place 0 0) 3) = true ∧ m.pcol 0 0 0 = 0)) ∧
    (let m := { inCo 2 loaded with calls := [(0, 1)] }
     mget 0 m.calls (0 * 16 + 0) = 0 + 1 ∧ m.coOf 0 = some 0 ∧ (m.co 0).prod.isSome = true) ∧
    (base.unsent = [] ∧ { base with unsent := [4] }.unsent = 4 :: [] ∧ base.get errEn = 0 ∧ (base.put errEn 1).get errEn = 1) := by
  decide +kernel

theorem witness_Counters :
    (base.prompterUp = true ∧ base.get (snBusy 0) = 0 ∧ (base.put (snBusy 0) 1).get (snBusy 0) = 1 ∧ mget none base.snaps 0 = none) ∧
    (let x : Snap := ⟨[], 0, 0, false, 0⟩
     mget none { base with snaps := [(0, some x)] }.snaps 0 = some x ∧ x.restart < 2 ^ 16 ∧ x.absent < 2 ^ 16) ∧
    (bits (1#64 <<< 63 ||| 3#64 <<< 58 ||| 1#64 <<< 50) 61 58 = 3 ∧ bits (1#64 <<< 63 ||| 3#64 <<< 58 ||| 1#64 <<< 50) 57 50 = 1 ∧
      bits (1#64 <<< 63) 57 50 = 0) ∧
    ((base.reg (wmOff 0 + 0x18)).getLsbD 63 = false ∧ (base.setReg (wmOff 0 + 0x18) (1#64 <<< 63)).reg (wmOff 0 + 0x18) = 1#64 <<< 63 ∧
      bits (1#64 ||| 1#64 <<< 58 ||| 1#64 <<< 50) 19 0 = 1) ∧
    (base.noticeLevel (.hot 0 0) = some (0, 96) ∧ (base.put stHotMark 0).noticeLevel (.hot 0 0) = some (0, 0) ∧
      (base.reg (noticeRegs (.hot 0 0)).2).getLsbD 63 = false ∧
      ((base.setReg (noticeRegs (.hot 0 0)).2 (1#64 <<< 63)).reg (noticeRegs (.hot 0 0)).2).getLsbD 63 = true) ∧
    (base.get telEn = 0 ∧ (let m := (base.put telEn 1).put telGroups 8; m.get telEn = 1 ∧ m.get telGroups = 2 ^ 3 ∧ m.ghost = false)) ∧
    (let m := inCo 2 loaded
     m.present 0 = true ∧ m.ghost = false ∧ m.traceFits 0 (1#64 <<< 63) = false ∧ m.traceFits 0 (1#64 <<< 63 ||| 1#64 <<< 12) = true ∧
       m.get (tcSize 0) = 0 ∧ bits (1#64 <<< 63 ||| 1#64 <<< 12) 23 12 ≠ 0 ∧ (m.put (fsDomain 0) 0).fieldOn 0 = false ∧
       m.get (tcEn 0) = 0 ∧ m.get (tsFull 0) = 0 ∧ m.fieldOn 0 = true ∧ m.stratReady 0 = false) ∧
    (let m := (((inCo 2 loaded).put (tcEn 0) 1).put (tcSections 0) 2).put (sfState 0) 3
     m.get (tcEn 0) = 1 ∧ m.stratReady 0 = true ∧ m.get (tcSections 0) = 2 ∧ m.get (tcStop 0) = 0) := by decide +kernel

/-- A field and a port that a part of another variant does not have. -/
theorem witness_Absent : (base.put idFields 1).present 8 = false ∧ (base.put idOptPorts 40).portFitted 0 = false := by decide +kernel

/-- The standby invariant at reset, and a step from it. -/
theorem witness_Standby : StandbyInv State.reset.sb ∧ step State.reset = .next (after (step State.reset)) := by
  refine ⟨⟨by decide, by decide, by decide, by decide, by decide, by decide, ?_, by decide, by decide⟩, rfl⟩
  intro k h; cases h

theorem witness_AllPresent : (∀ f, f < 72 → base.present f = true) ∧ ∀ p, p < 48 → base.portFitted p = true := by decide +kernel
end Sys2Proof.Tests
end

/-! SUPPORT. What a control command of a matrix core does as it begins and as it completes (R75, R93, R95, R100). -/

namespace Sys2Proof.Machine

/-! Sparse maps: a stretch of keys given the values of a list. -/

section
variable {α : Type}

theorem mget_append (d : α) (m n : SMap α) (k : Nat) : mget d (m ++ n) k = mget (mget d n k) m k := by
  induction m with
  | nil => rfl
  | cons e m ih => simp only [List.cons_append, mget, ih]

theorem mget_filter_kept (d : α) (m : SMap α) (p : Nat × α → Bool) (k : Nat) (h : ∀ v, p (k, v) = true) :
    mget d (m.filter p) k = mget d m k := by
  induction m with
  | nil => rfl
  | cons e m ih =>
    obtain ⟨j, v⟩ := e
    by_cases hj : j = k
    · subst hj; simp [h, mget]
    · simp only [List.filter_cons]
      split <;> simp only [mget, if_neg hj, ih]

theorem mget_filter_dropped (d : α) (m : SMap α) (p : Nat × α → Bool) (k : Nat) (h : ∀ v, p (k, v) = false) :
    mget d (m.filter p) k = d := by
  refine mget_of_absent d _ k fun e he hk => ?_
  subst hk
  exact Bool.false_ne_true ((h e.2).symm.trans (List.mem_filter.1 he).2)

variable [DecidableEq α]

theorem mem_entriesFrom (d : α) (j : Nat) (vs : List α) : ∀ e ∈ entriesFrom d j vs, j ≤ e.1 ∧ e.1 < j + vs.length := by
  induction vs generalizing j with
  | nil => simp [entriesFrom]
  | cons v vs ih =>
    have tail : ∀ e ∈ entriesFrom d (j + 1) vs, j ≤ e.1 ∧ e.1 < j + (v :: vs).length := fun e he => by
      have := ih (j + 1) e he
      rw [List.length_cons]
      omega
    simp only [entriesFrom]
    split
    · exact tail
    · exact List.forall_mem_cons.2 ⟨by simp, tail⟩

theorem mget_entriesFrom (d : α) (j i : Nat) (vs : List α) : mget d (entriesFrom d j vs) (j + i) = (vs[i]?).getD d := by
  induction vs generalizing j i with
  | nil => rfl
  | cons v vs ih =>
    simp only [entriesFrom]
    cases i with
    | zero =>
      have later : ∀ e ∈ entriesFrom d (j + 1) vs, e.1 ≠ j + 0 := fun e he => by
        have := (mem_entriesFrom d (j + 1) vs e he).1
        omega
      split
      · rename_i hv; rw [mget_of_absent d _ _ later]; exact hv.symm
      · simp [mget]
    | succ i =>
      have later : mget d (entriesFrom d (j + 1) vs) (j + (i + 1)) = (vs[i]?).getD d := by
        rw [← ih (j + 1) i, Nat.add_right_comm, Nat.add_assoc]
      split
      · exact later
      · rw [mget, if_neg (by omega)]; exact later

/-- A filled stretch reads as the list, every other key as before. -/
theorem mget_mfill (d : α) (m : SMap α) (k n i : Nat) (vs : List α) :
    mget d (mfill d m k n vs) i = if k ≤ i ∧ i < k + n then (vs[i - k]?).getD d else mget d m i := by
  unfold mfill
  rw [mget_append, mget_append]
  split
  · rename_i h
    obtain ⟨j, rfl⟩ := Nat.exists_eq_add_of_le h.1
    have hj : j < n := by omega
    rw [mget_filter_dropped d _ _ _ (by simp; omega), mget_filter_dropped _ _ _ _ (by simp), mget_entriesFrom,
      Nat.add_sub_cancel_left, List.getElem?_take_of_lt hj]
  · rename_i h
    have off : ∀ e ∈ entriesFrom d k (vs.take n), e.1 ≠ i := fun e he => by
      have := mem_entriesFrom d k _ e he
      rw [List.length_take] at this
      omega
    rw [mget_of_absent _ _ _ off]
    by_cases hi : i < k
    · rw [mget_filter_dropped d _ _ _ fun _ => decide_eq_false (by simp; omega), mget_filter_kept _ _ _ _ fun _ => decide_eq_true hi]
    · rw [mget_filter_dropped _ _ _ _ fun _ => decide_eq_false hi, mget_filter_kept _ _ _ _ fun _ => decide_eq_true (by simp; omega)]

end

/-! Accumulators and their checksum lines. -/

theorem Matrix.tile_setTile_same (m : Matrix) (a : Nat) (t : List Word32) (h : t.length = 256) : (m.setTile a t).tile a = t := by
  refine List.ext_getElem (by simp [Matrix.tile, h]) fun i _ hi => ?_
  have hi' : i < 256 := h ▸ hi
  simp only [Matrix.tile, List.getElem_map, List.getElem_range]
  refine (mget_mfill ..).trans ?_
  rw [if_pos (by omega), Nat.add_sub_cancel_left, List.getElem?_eq_getElem hi, Option.getD_some]

theorem Matrix.tile_setTile_ne (m : Matrix) {a b : Nat} (t : List Word32) (h : b ≠ a) : (m.setTile a t).tile b = m.tile b := by
  refine List.map_congr_left fun i hi => ?_
  rw [List.mem_range] at hi
  exact (mget_mfill ..).trans (if_neg (by omega))

theorem Matrix.lineSet_setLines_same (m : Matrix) (a kind : Nat) (ls : List Val) (h : kind < 4) :
    (m.setLines a ls).lineSet a kind = (List.range 16).map (fun k => (ls[kind * 16 + k]?).getD Val.zero) := by
  refine List.map_congr_left fun i hi => ?_
  rw [List.mem_range] at hi
  refine (mget_mfill ..).trans ?_
  rw [if_pos (by omega), Nat.add_assoc, Nat.add_sub_cancel_left]

theorem Matrix.lineSet_setLines_ne (m : Matrix) {a b kind : Nat} (ls : List Val) (hk : kind < 4) (h : b ≠ a) :
    (m.setLines a ls).lineSet b kind = m.lineSet b kind := by
  refine List.map_congr_left fun i hi => ?_
  rw [List.mem_range] at hi
  exact (mget_mfill ..).trans (if_neg (by omega))

/-- An accumulator is +0 and its lines and SUSPECT bit are reset (R96, R100). -/
def Matrix.AccReset (m : Matrix) (a : Nat) : Prop :=
  m.tile a = List.replicate 256 0 ∧ m.suspect.testBit a = false ∧
    ∀ kind, kind < 4 → m.lineSet a kind = List.replicate 16 Val.zero

theorem Matrix.zeroAcc_tile_ne (m : Matrix) {a b : Nat} (h : b ≠ a) : (m.zeroAcc a).tile b = m.tile b :=
  m.tile_setTile_ne zeroTile h

theorem Matrix.zeroAcc_lineSet_ne (m : Matrix) {a b kind : Nat} (hk : kind < 4) (h : b ≠ a) :
    (m.zeroAcc a).lineSet b kind = m.lineSet b kind :=
  (m.setTile a zeroTile).lineSet_setLines_ne zeroLines hk h

theorem Matrix.zeroAcc_suspect (m : Matrix) (a : Nat) : (m.zeroAcc a).suspect = m.suspect &&& (15 - 2 ^ a) := rfl

/-- Zeroing makes the accumulator reset. -/
theorem Matrix.accReset_zeroAcc (m : Matrix) {a : Nat} (h : a < 4) : (m.zeroAcc a).AccReset a := by
  refine ⟨m.tile_setTile_same a zeroTile List.length_replicate, ?_, fun kind hk => ?_⟩
  · have clear : ∀ a, a < 4 → (15 - 2 ^ a).testBit a = false := by decide
    rw [zeroAcc_suspect, Nat.testBit_and, clear a h, Bool.and_false]
  · refine ((m.setTile a zeroTile).lineSet_setLines_same a kind zeroLines hk).trans ?_
    have zero : ∀ k, (zeroLines[k]?).getD Val.zero = Val.zero := fun k => by
      rw [zeroLines, List.getElem?_replicate]
      split <;> rfl
    simp only [zero, List.map_const', List.length_range]

/-- Zeroing any accumulator leaves a reset one reset. -/
theorem Matrix.AccReset.zeroAcc {m : Matrix} {b : Nat} (h : m.AccReset b) (hb : b < 4) (a : Nat) : (m.zeroAcc a).AccReset b := by
  by_cases e : b = a
  · exact e ▸ m.accReset_zeroAcc hb
  · obtain ⟨htile, hsus, hlines⟩ := h
    refine ⟨(m.zeroAcc_tile_ne e).trans htile, ?_, fun kind hk => (m.zeroAcc_lineSet_ne hk e).trans (hlines kind hk)⟩
    rw [zeroAcc_suspect, Nat.testBit_and, hsus, Bool.false_and]

/-- An accumulator zeroed where a mask selects it. -/
def Matrix.zeroSelected (mask : Nat) (m : Matrix) (a : Nat) : Matrix := if mask / 2 ^ a % 2 = 1 then m.zeroAcc a else m

/-- The accumulators of a list that a mask selects, zeroed one after another, as ZACC zeroes them (`zaccStep_eq`). -/
def Matrix.zeroAccs (mask : Nat) (as : List Nat) (m : Matrix) : Matrix := as.foldl (Matrix.zeroSelected mask) m

theorem zaccStep_eq (u : Nat) (c : Cell) :
    zaccStep u c = controlStep 0x0A u (fun d => Matrix.zeroAccs (cFmtA d) (List.range 4)) c := rfl

/-- What zeroing a selected accumulator leaves, zeroing all of them leaves. -/
theorem Matrix.zeroAccs_keeps {β : Type} (f : Matrix → β) (mask : Nat) (as : List Nat)
    (h : ∀ m a, mask / 2 ^ a % 2 = 1 → f (m.zeroAcc a) = f m) (m : Matrix) : f (m.zeroAccs mask as) = f m := by
  induction as generalizing m with
  | nil => rfl
  | cons a as ih =>
    refine (ih _).trans ?_
    unfold zeroSelected
    split
    · rename_i ha; exact h m a ha
    · rfl

/-- A selected accumulator of the list is reset, and an accumulator reset before stays so. -/
theorem Matrix.accReset_zeroAccs (mask : Nat) (as : List Nat) {b : Nat} (hb : b < 4) (m : Matrix)
    (h : (b ∈ as ∧ mask / 2 ^ b % 2 = 1) ∨ m.AccReset b) : (m.zeroAccs mask as).AccReset b := by
  induction as generalizing m with
  | nil => exact h.resolve_left (by simp)
  | cons a as ih =>
    refine ih _ ?_
    unfold zeroSelected
    rcases h with ⟨hmem, hsel⟩ | hreset
    · rcases List.mem_cons.1 hmem with rfl | hmem
      · rw [if_pos hsel]; exact .inr (m.accReset_zeroAcc hb)
      · exact .inl ⟨hmem, hsel⟩
    · refine .inr ?_
      split
      · exact hreset.zeroAcc hb a
      · exact hreset

/-- An accumulator that is not selected, and its lines, are as before. -/
theorem Matrix.zeroAccs_unselected (mask : Nat) (as : List Nat) {b : Nat} (hb : ¬mask / 2 ^ b % 2 = 1) (m : Matrix) :
    (m.zeroAccs mask as).tile b = m.tile b ∧ ∀ kind, kind < 4 → (m.zeroAccs mask as).lineSet b kind = m.lineSet b kind := by
  have ne {a : Nat} (ha : mask / 2 ^ a % 2 = 1) : b ≠ a := by rintro rfl; exact hb ha
  exact ⟨Matrix.zeroAccs_keeps (·.tile b) mask as (fun m _ ha => m.zeroAcc_tile_ne (ne ha)) m, fun kind hk =>
    Matrix.zeroAccs_keeps (·.lineSet b kind) mask as (fun m _ ha => m.zeroAcc_lineSet_ne hk (ne ha)) m⟩

/-- ACCMASK selects accumulator `a` by its bit `a`, bit 116 + `a` of the command (Table 04-6). -/
theorem cFmtA_selects (d : Word128) {a : Nat} (h : a < 4) : cFmtA d / 2 ^ a % 2 = 1 ↔ d.getLsbD (116 + a) = true := by
  have := testBit_bits d 119 116 a
  rw [Nat.testBit_eq_decide_div_mod_eq, decide_eq_true h, Bool.true_and] at this
  rw [← this, decide_eq_true_eq, cFmtA]

/-! A control command begins. -/

@[simp] theorem Cell.mat_setMat_same (k : Cell) (u : Nat) (x : Matrix) : (k.setMat u x).mat u = x := mget_mset_same ..

@[simp] theorem Cell.setMat_setMat_same (k : Cell) (u : Nat) (x y : Matrix) : (k.setMat u x).setMat u y = k.setMat u y := by
  simp [Cell.setMat]

/-- A core whose head command is ready has it in its queue, and no fault. -/
theorem readyHead_some {k : Cell} {u op : Nat} {d : Word128} (h : readyHead k u op = some d) :
    (k.mat u).fault = 0 ∧ ∃ q, (k.mat u).queue = d :: q := by
  unfold readyHead at h
  cases hq : (k.mat u).queue with
  | nil => simp [hq] at h
  | cons e q =>
    simp only [hq, Option.ite_none_right_eq_some, Option.some.injEq] at h
    obtain ⟨⟨-, hfault, -, -⟩, rfl⟩ := h
    exact ⟨hfault, q, rfl⟩

/-- The core with the control command at the head of its queue begun. -/
def Matrix.beginControl (m : Matrix) (d : Word128) : Matrix :=
  { m with queue := m.queue.tail, begun := m.begun ++ [otherBegun d 2 0] }

theorem controlStep_ready {k : Cell} {u op : Nat} {d : Word128} (f : Word128 → Matrix → Matrix) (h : readyHead k u op = some d) :
    controlStep op u f k = k.setMat u (f d ((k.mat u).beginControl d)) := by
  simp only [controlStep, h, beginHead, Cell.mat_setMat_same, Cell.setMat_setMat_same]
  rfl

theorem cellDrained_of_busy {k : Cell} {u : Nat} (hu : u < 6) (h : matrixDrained (k.mat u) = false) : cellDrained k = false := by
  have : (List.range 6).all (fun u => matrixDrained (k.mat u)) = false :=
    List.all_eq_false.2 ⟨u, List.mem_range.2 hu, by simp [h]⟩
  simp [cellDrained, this]

/-- A core at work before and after ends nothing that a scene change waits for. -/
theorem sceneState_setMat_busy {k : Cell} {u : Nat} {x : Matrix} (hu : u < 6) (h : matrixDrained (k.mat u) = false)
    (hx : matrixDrained x = false) : sceneState (k.setMat u x) = sceneState k := by
  unfold sceneState
  rw [cellDrained_of_busy hu h, cellDrained_of_busy hu (by rwa [Cell.mat_setMat_same])]
  rfl

/-- A control command begins: it goes from the queue to the begun ones, and what it does to its core is done. -/
theorem onMatrix_control {s : State} {c : CellRef} {u : Fin 6} {d : Word128} {op : Nat} (opn : Nat) (f : Word128 → Matrix → Matrix)
    (hc : CellGoes s c) (h : readyHead (cellOf s c) u op = some d)
    (hfault : ∀ m, (f d m).fault = m.fault) (hbegun : ∀ m, (f d m).begun = m.begun) :
    onMatrix s c opn (controlStep op u f) =
      .next (withCell s c ((cellOf s c).setMat u (f d (((cellOf s c).mat u).beginControl d)))) := by
  obtain ⟨hfault0, q, hqueue⟩ := readyHead_some h
  have before : matrixDrained ((cellOf s c).mat u) = false := by simp [matrixDrained, hfault0, hqueue]
  have after : matrixDrained (f d (((cellOf s c).mat u).beginControl d)) = false := by
    simp [matrixDrained, hfault, hbegun, Matrix.beginControl, hfault0]
  have step := controlStep_ready f h
  rw [onMatrix_goes s c opn _ hc, runCell_told s c opn _ (by rw [step]; exact sceneState_setMat_busy u.2 before after), step,
    told_silent _ _ _ _ rfl]

/-- What ZACC does to its core as it begins: the core's accumulators that ACCMASK selects, zeroed. -/
theorem zacc_begins {s : State} {c : CellRef} {u : Fin 6} {d : Word128} (hc : CellGoes s c)
    (h : readyHead (cellOf s c) u 0x0A = some d) :
    exec (.zacc c u) s = .next (withCell s c ((cellOf s c).setMat u
      ((((cellOf s c).mat u).beginControl d).zeroAccs (cFmtA d) (List.range 4)))) :=
  onMatrix_control _ (fun d => Matrix.zeroAccs (cFmtA d) (List.range 4)) hc h
    (Matrix.zeroAccs_keeps Matrix.fault _ _ fun _ _ _ => rfl) (Matrix.zeroAccs_keeps Matrix.begun _ _ fun _ _ _ => rfl)

/-! A command completes. -/

theorem sceneProgress_idle (m : Mod) (co : Nat) (h : ∀ g, (m.co co).change = some g → g.phase ≠ 1) : m.sceneProgress co = m := by
  unfold Mod.sceneProgress
  cases hg : (m.co co).change with
  | none => rfl
  | some g => simp [h g hg]

/-- A step of a cell that tells one count, while no scene change waits. -/
theorem runCell_counts (s : State) (c : CellRef) (opn : Nat) (g : Cell → Cell) {k : Cell} {kind code sub n : Nat}
    (hs : NoSceneWait s c) (hk : k.notes = []) (hg : g (cellOf s c) = k.note (.count kind code sub n)) :
    ({ s with m := s.m.runCell c.field c.lcell opn g } : State) = countedAt (withCell s c k) c kind code sub n := by
  have tells : s.m.tellCell c.field c.lcell opn g = (countedAt (withCell s c k) c kind code sub n).m := by
    have : ({ s with m := s.m.tellCell c.field c.lcell opn g } : State) = told s c opn (g (cellOf s c)) := rfl
    rw [hg, told_note, told_silent _ _ _ _ hk] at this
    exact congrArg State.m this
  have same : s.m.runCell c.field c.lcell opn g = (countedAt (withCell s c k) c kind code sub n).m := by
    unfold Mod.runCell
    simp only [tells]
    split
    · rfl
    · split
      · rename_i co hco
        exact sceneProgress_idle _ _ fun x hx => hs co x hco hx
      · rfl
  rw [same]; rfl

@[simp] theorem Cell.mat_note (k : Cell) (n : Note) (u : Nat) : (k.note n).mat u = k.mat u := rfl

theorem matrixSettle_empty {k : Cell} {u : Nat} (h : (k.mat u).queue = []) : matrixSettle k u = k := by simp [matrixSettle, h]

/-- The only begun command of a core, done and with no fault, is counted in COMPLETED (R93). -/
theorem matrixAdvance_single {k : Cell} {u : Nat} {b : Begun} (hbegun : (k.mat u).begun = [b]) (hdone : b.done = true) (hfc : b.fc = 0) :
    matrixAdvance u 1 k = (k.setMat u { k.mat u with
      begun := [], completed := ((k.mat u).completed + 1) % 65536 }).note (.count 1 1 u 1) := by
  simp [matrixAdvance, hbegun, hdone, hfc]

/-- The only begun command of a core, a SETMASK, completes (R93, R100). -/
theorem matrixComplete_setmask (e : Env) (k : Cell) (u : Nat) (b : Begun) (hbegun : (k.mat u).begun = [b]) (hdone : b.done = false)
    (hfc : b.fc = 0) (hop : cOp b.cmd = 0x0D) (hqueue : (k.mat u).queue = []) :
    matrixComplete e u 0 k = (k.setMat u { k.mat u with
      begun := [], completed := ((k.mat u).completed + 1) % 65536, pmask := b.cmd.setWidth 64 }).note (.count 1 1 u 1) := by
  have masked : matrixComplete e u 0 k = matrixSettle (matrixAdvance u 1 (k.setMat u { k.mat u with
      begun := [{ b with done := true }], pmask := b.cmd.setWidth 64 })) u := by
    simp [matrixComplete, hbegun, hdone, hfc, hop, isMma, applyMask]
  rw [masked, matrixAdvance_single (b := { b with done := true }) (by rw [Cell.mat_setMat_same]) rfl hfc,
    Cell.mat_setMat_same, Cell.setMat_setMat_same, matrixSettle_empty (by rw [Cell.mat_note, Cell.mat_setMat_same, hqueue])]

theorem exec_matrixCommandComplete (s : State) (c : CellRef) (u : Fin 6) (i : Nat) (h : s.m.cellRuns c.field c.lcell = true) :
    exec (.matrixCommandComplete c u i) s = .next { s with
      m := s.m.runCell c.field c.lcell (opMatrix (begunOp (s.m.cell c.field c.lcell) u i)) (matrixComplete (envOf s c) u i) } := by
  refine (onField_present s _ _ (present_of_cellRuns _ _ _ h)).trans ?_
  rw [if_pos h]
  rfl

theorem setmask_completes {s : State} {c : CellRef} {u : Fin 6} {b : Begun} (hrun : s.m.cellRuns c.field c.lcell = true)
    (hscene : NoSceneWait s c) (hbegun : ((cellOf s c).mat u).begun = [b]) (hdone : b.done = false) (hfc : b.fc = 0)
    (hop : cOp b.cmd = 0x0D) (hqueue : ((cellOf s c).mat u).queue = []) :
    exec (.matrixCommandComplete c u 0) s = .next (countedAt (withCell s c ((cellOf s c).setMat u { (cellOf s c).mat u with
      begun := [], completed := (((cellOf s c).mat u).completed + 1) % 65536, pmask := b.cmd.setWidth 64 })) c 1 1 u 1) := by
  rw [exec_matrixCommandComplete s c u 0 hrun,
    runCell_counts s c _ _ hscene rfl (matrixComplete_setmask (envOf s c) _ u b hbegun hdone hfc hop hqueue)]

/-- Settles O15: a ready control command leaves its queue and does what it does to its core as it begins, and the cell tells
nothing; a SETMASK writes PMASK as it completes (the two moments are log entry 11's). For ZACC, a selected accumulator stays
reset while the others are zeroed, and one not selected is touched by no zeroing. -/
theorem matrixControlCommands : Obligations.MatrixControlCommands := by
  unfold Obligations.MatrixControlCommands
  intro s c u d hc
  refine ⟨fun h => ?_, fun h => ?_, fun h => ?_, fun b hscene hbegun hdone hfc hcmd hop hqueue => ?_, fun h => ?_⟩
  · let m' := ((cellOf s c).mat u).beginControl d
    have kept {β : Type} (f : Matrix → β) (hf : ∀ m a, f (m.zeroAcc a) = f m) :
        f (m'.zeroAccs (cFmtA d) (List.range 4)) = f m' := Matrix.zeroAccs_keeps f _ _ (fun m a _ => hf m a) m'
    refine ⟨_, zacc_begins hc h, kept Matrix.queue fun _ _ => rfl, kept Matrix.begun fun _ _ => rfl, kept Matrix.sr fun _ _ => rfl,
      kept Matrix.pmask fun _ _ => rfl, kept Matrix.completed fun _ _ => rfl, fun a ha => ?_⟩
    split
    · rename_i hsel
      exact Matrix.accReset_zeroAccs _ _ ha m' (.inl ⟨List.mem_range.2 ha, (cFmtA_selects d ha).2 hsel⟩)
    · rename_i hsel
      exact Matrix.zeroAccs_unselected _ _ (fun h => hsel ((cFmtA_selects d ha).1 h)) m'
  · exact onMatrix_control _ _ hc h (fun _ => rfl) (fun _ => rfl)
  · exact onMatrix_control _ _ hc h (fun _ => rfl) (fun _ => rfl)
  · subst hcmd
    exact setmask_completes hc.1 hscene hbegun hdone hfc hop hqueue
  · exact onMatrix_control _ _ hc h (fun _ => rfl) (fun _ => rfl)

end Sys2Proof.Machine

/-! SUPPORT. The scalar core's arithmetic: the ALU functions one by one, and the instructions that write rd (R140 to R142). -/

namespace Sys2Proof.Machine

/-! The ALU functions (R142). -/

/-- An exact signed product's high word: the product of two words is at most 2^126 in size, its high part within a word. -/
theorem toInt_mulHigh (a b : Word) : (mulHigh a.toInt b.toInt).toInt = a.toInt * b.toInt / 2 ^ 64 := by
  have low : -2 ^ 126 ≤ a.toInt * b.toInt := BitVec.le_toInt_mul_toInt
  have high : a.toInt * b.toInt ≤ 2 ^ 126 := BitVec.toInt_mul_toInt_le
  exact BitVec.toInt_ofInt_eq_self (by decide) (by omega) (by omega)

theorem toNat_mulHigh (a b : Word) : (mulHigh a.toNat b.toNat).toNat = a.toNat * b.toNat / 2 ^ 64 := by
  have natural : mulHigh a.toNat b.toNat = BitVec.ofNat 64 (a.toNat * b.toNat / 2 ^ 64) := by
    rw [← BitVec.ofInt_natCast, mulHigh]; norm_cast
  rw [natural, BitVec.toNat_ofNat, Nat.mod_eq_of_lt (Nat.div_lt_of_lt_mul (Nat.mul_lt_mul'' a.isLt b.isLt))]

theorem sdivW_eq_sdiv {a b : Word} (hb : b ≠ 0) : sdivW a b = a.sdiv b := by
  rw [sdivW, if_neg hb]
  exact BitVec.eq_of_toInt_eq (by rw [BitVec.toInt_ofInt, BitVec.toInt_sdiv])

theorem sremW_eq_srem {a b : Word} (hb : b ≠ 0) : sremW a b = a.srem b := by
  rw [sremW, if_neg hb]
  exact BitVec.eq_of_toInt_eq (by rw [← BitVec.toInt_srem, BitVec.ofInt_toInt])

/-- Every quotient but that of -2^63 by -1 is exact. -/
theorem toInt_sdivW {a b : Word} (hb : b ≠ 0) (h : ¬(a.toInt = -(2 ^ 63) ∧ b.toInt = -1)) :
    (sdivW a b).toInt = Int.tdiv a.toInt b.toInt := by
  rw [sdivW_eq_sdiv hb]
  refine BitVec.toInt_sdiv_of_ne_or_ne a b (Decidable.not_and_iff_or_not.1 ?_)
  rintro ⟨rfl, rfl⟩
  exact h (by decide)

/-- -2^63 by -1 (R142). -/
theorem sdivW_sremW_overflow {a b : Word} (ha : a.toInt = -(2 ^ 63)) (hb : b.toInt = -1) :
    (sdivW a b).toInt = -(2 ^ 63) ∧ sremW a b = 0 := by
  have ea : a = BitVec.intMin 64 := BitVec.eq_of_toInt_eq ha
  have eb : b = -1 := BitVec.eq_of_toInt_eq hb
  subst ea eb
  decide

theorem leadingZeros_zero (n : Nat) : leadingZeros n 0 = n := by
  induction n with
  | zero => rfl
  | succ n ih => simp [leadingZeros, ih, Nat.add_comm]

/-- With bit `k` the highest one set, `n - 1 - k` bits lead it. -/
theorem leadingZeros_of_highest {n v k : Nat} (hk : k < n) (hset : v.testBit k = true) (habove : ∀ j, k < j → v.testBit j = false) :
    leadingZeros n v = n - 1 - k := by
  induction n with
  | zero => omega
  | succ n ih =>
    have top : v / 2 ^ n % 2 = 1 ↔ v.testBit n = true := by rw [Nat.testBit_eq_decide_div_mod_eq, decide_eq_true_iff]
    rw [leadingZeros]
    by_cases hn : k = n
    · rw [if_pos (top.2 (hn ▸ hset))]; omega
    · have clear : ¬v / 2 ^ n % 2 = 1 := by rw [top, habove n (by omega)]; decide
      rw [if_neg clear, ih (by omega)]; omega

/-- CLZ of 0 (R142). -/
theorem aluFn_clz_zero (b : Word) : aluFn 0x11 0 b = 64 := congrArg (BitVec.ofNat 64) (leadingZeros_zero 64)

theorem aluFn_clz_highest {a : Word} (b : Word) {k : Nat} (hk : k < 64) (hset : a.getLsbD k = true)
    (habove : ∀ j, k < j → a.getLsbD j = false) : (aluFn 0x11 a b).toNat = 63 - k := by
  have lead : leadingZeros 64 a.toNat = 63 - k := leadingZeros_of_highest hk hset habove
  rw [aluFn, lead, BitVec.toNat_ofNat]
  omega

theorem popcount_eq_length (n v : Nat) : popcount n v = ((List.range n).filter (fun i => v.testBit i)).length := by
  induction n generalizing v with
  | zero => rfl
  | succ n ih =>
    have lowest : v % 2 = if v.testBit 0 then 1 else 0 := by
      rw [Nat.testBit_zero]
      rcases Nat.mod_two_eq_zero_or_one v with h | h <;> simp [h]
    have rest : (List.map Nat.succ (List.range n)).filter (fun i => v.testBit i) =
        ((List.range n).filter (fun i => (v / 2).testBit i)).map Nat.succ := by
      rw [List.filter_map]; congr 2; funext i; exact Nat.testBit_succ ..
    rw [popcount, lowest, ih, List.range_succ_eq_map, List.filter_cons, rest]
    split <;> simp [Nat.add_comm]

theorem aluFn_popc (a b : Word) : (aluFn 0x12 a b).toNat = ((List.range 64).filter (fun i => a.getLsbD i)).length := by
  have small := List.length_filter_le (fun i => a.getLsbD i) (List.range 64)
  rw [List.length_range] at small
  have ones : popcount 64 a.toNat = ((List.range 64).filter (fun i => a.getLsbD i)).length := popcount_eq_length 64 a.toNat
  rw [aluFn, ones, BitVec.toNat_ofNat]
  omega

theorem toInt_signedMin (a b : Word) : (if b.slt a then b else a).toInt = min a.toInt b.toInt := by
  simp only [BitVec.slt_iff_toInt_lt]
  split <;> omega

theorem toInt_signedMax (a b : Word) : (if a.slt b then b else a).toInt = max a.toInt b.toInt := by
  simp only [BitVec.slt_iff_toInt_lt]
  split <;> omega

/-! The immediate forms' results (Table 06-9). -/

/-- SHI below its reserved encodings: 64 amounts of each of the three shifts. -/
theorem shiFn_of_lt {imm : Half} (h : imm.toNat < 192) (a : Word) : shiFn imm a =
    if imm.toNat < 64 then a <<< imm.toNat
    else if imm.toNat < 128 then a >>> (imm.toNat - 64) else a.sshiftRight (imm.toNat - 128) := by
  have amount : bits imm 5 0 = imm.toNat % 64 := rfl
  have kind : bits imm 7 6 = imm.toNat / 64 := by
    rw [bits, Nat.shiftRight_eq_div_pow]; omega
  rw [shiFn, amount, kind]
  split_ifs with h64 h128
  · rw [show imm.toNat / 64 = 0 by omega, show imm.toNat % 64 = imm.toNat by omega]; rfl
  · rw [show imm.toNat / 64 = 1 by omega, show imm.toNat % 64 = imm.toNat - 64 by omega]; rfl
  · rw [show imm.toNat / 64 = 2 by omega, show imm.toNat % 64 = imm.toNat - 128 by omega]; rfl

theorem shiBad_of_lt {imm : Half} (h : imm.toNat < 192) : shiBad imm = false := by
  refine decide_eq_false ?_
  simp only [bits, Nat.shiftRight_eq_div_pow]
  omega

theorem sext_lui (imm : Half) : sext 32 (imm.toNat * 65536) = (imm ++ 0#16).signExtend 64 := by
  have word : BitVec.ofNat 32 (imm.toNat * 65536) = imm ++ 0#16 := by
    refine BitVec.eq_of_toNat_eq ?_
    rw [BitVec.toNat_append, BitVec.toNat_ofNat, BitVec.toNat_ofNat, Nat.shiftLeft_eq]
    simp only [Nat.zero_mod, Nat.or_zero]
    omega
  rw [sext, word]

theorem slt_signExtend (a : Word) (imm : Half) : a.slt (imm.signExtend 64) = true ↔ a.toInt < imm.toInt := by
  rw [BitVec.slt_iff_toInt_lt, BitVec.toInt_signExtend_of_le (by decide)]

/-! The instructions that write rd. -/

section
variable {s : State} {c : CellRef}

/-- A good instruction of form I that may issue writes rd from ra, and nothing else but the PC and the count (R141). -/
theorem immStep_writes {op : Nat} {i : IForm} {bad : Bool} (f : Word → Word) (h : ScalarMay s c op 0 [i.ra.toNat, i.rd.toNat])
    (hb : bad = false) :
    onScalar s c op (fun _ => immStep op i bad f) = .next (ran s c (nextPc s c) (setX s c i.rd (f (xreg s c i.ra)))) :=
  scalar_done s c _ _ _ _ _ _ _ rfl hb _ h rfl rfl (sceneState_setX s c i.rd _)

theorem exec_alu {x : XForm} : exec (.alu c x) s = onScalar s c 0x01 (fun _ => aluStep x) := rfl

/-- The reserved encodings of the ALU instruction: its FN, its U field, CLZ's and POPC's RB field (R142). -/
theorem alu_reserved_iff (x : XForm) : (aluBad x.fn.toNat x.rb.toNat || decide (x.u ≠ 0)) = true ↔
    0x14 < x.fn.toNat ∨ x.u ≠ 0 ∨ (0x11 ≤ x.fn.toNat ∧ x.fn.toNat ≤ 0x12 ∧ x.rb ≠ 0) := by
  have unary : x.fn.toNat = 0x11 ∨ x.fn.toNat = 0x12 ↔ 0x11 ≤ x.fn.toNat ∧ x.fn.toNat ≤ 0x12 := by omega
  have hrb : x.rb.toNat ≠ 0 ↔ x.rb ≠ 0 := BitVec.toNat_ne_iff_ne (y := 0)
  rw [aluBad, Bool.or_eq_true, decide_eq_true_iff, decide_eq_true_iff, unary, hrb]
  tauto

theorem alu_reserved {x : XForm} (h : ScalarMay s c 0x01 0 [x.ra.toNat, x.rb.toNat, x.rd.toNat])
    (hbad : 0x14 < x.fn.toNat ∨ x.u ≠ 0 ∨ (0x11 ≤ x.fn.toNat ∧ x.fn.toNat ≤ 0x12 ∧ x.rb ≠ 0)) :
    exec (.alu c x) s = .next (faulted s c 1) := by
  have bad : (aluBad x.fn.toNat x.rb.toNat || decide (x.u ≠ 0)) = true := (alu_reserved_iff x).2 hbad
  rw [exec_alu]
  exact scalar_faults s c _ 1 _ h.1 (by rw [aluStep, bad]; exact scalarStep_bad s c _ _ _ _ h)

theorem alu_writes {x : XForm} (h : ScalarMay s c 0x01 0 [x.ra.toNat, x.rb.toNat, x.rd.toNat]) (hu : x.u = 0)
    (hgood : x.fn.toNat ≤ 0x10 ∨ (x.fn.toNat ≤ 0x14 ∧ (0x13 ≤ x.fn.toNat ∨ x.rb = 0))) :
    exec (.alu c x) s =
      .next (ran s c (nextPc s c) (setX s c x.rd (aluFn x.fn.toNat (xreg s c x.ra) (xreg s c x.rb)))) := by
  have good : (aluBad x.fn.toNat x.rb.toNat || decide (x.u ≠ 0)) = false := by
    rw [Bool.eq_false_iff, ne_eq, alu_reserved_iff, hu]
    rintro (hfn | hu | ⟨hfn, hfn', hrb⟩)
    · omega
    · exact hu rfl
    · obtain hlow | ⟨-, hhigh | hzero⟩ := hgood
      · omega
      · omega
      · exact hrb hzero
  rw [exec_alu]
  exact scalar_done s c _ _ _ _ _ _ _ rfl good _ h rfl rfl (sceneState_setX s c x.rd _)

end

/-- Settles O2: each instruction by what it writes to rd, or by its reserved fields; the ALU functions by a lemma each. -/
theorem scalarResults : Obligations.ScalarResults := by
  unfold Obligations.ScalarResults
  refine ⟨fun s c => ⟨fun x => alu_reserved, fun x => alu_writes, fun i => ?_⟩, fun a b => ?_⟩
  · refine ⟨fun h => immStep_writes _ h rfl, fun h => immStep_writes _ h rfl, fun h => immStep_writes _ h rfl,
      fun h => immStep_writes _ h rfl, fun h hi => ?_, fun h hra => ?_, fun h => ?_⟩
    · rw [← shiFn_of_lt hi]
      exact immStep_writes _ h (shiBad_of_lt hi)
    · rw [← sext_lui]
      exact immStep_writes _ h (by simp [hra])
    · simp only [← slt_signExtend]
      exact immStep_writes _ h rfl
  · refine ⟨rfl, rfl, rfl, rfl, rfl, rfl, rfl, rfl, ?slt, ?sltu, BitVec.toNat_mul .., toInt_mulHigh a b, toNat_mulHigh a b,
      ?byZero, ?divide, aluFn_clz_zero b, fun _ => aluFn_clz_highest b, aluFn_popc a b, toInt_signedMin a b, toInt_signedMax a b⟩
    case slt => exact if_congr BitVec.slt_iff_toInt_lt rfl rfl
    case sltu => exact if_congr BitVec.ult_iff_lt rfl rfl
    case byZero =>
      rintro rfl
      exact ⟨rfl, rfl, rfl, rfl⟩
    case divide =>
      intro hb
      refine ⟨?_, ?_, ?_, fun ⟨h, h'⟩ => sdivW_sremW_overflow h h', toInt_sdivW hb⟩
      · exact (congrArg BitVec.toNat (if_neg hb)).trans BitVec.toNat_udiv
      · exact (congrArg BitVec.toNat (if_neg hb)).trans BitVec.toNat_umod
      · exact (congrArg BitVec.toInt (sremW_eq_srem hb)).trans (BitVec.toInt_srem ..)

end Sys2Proof.Machine

/-! SUPPORT. The scalar core's instructions that sequence the matrix cores (R103, R145). -/

namespace Sys2Proof.Machine

/-- A good scalar instruction that may issue and completes, telling nothing of its own, while no scene change waits: it may end
or begin what one would wait for. -/
theorem scalar_done_noScene {s : State} {c : CellRef} (op o2 cls : Nat) (regs : List Nat) {bad : Bool} (body : Cell → SRes)
    (hb : bad = false) {k : Cell} (h : ScalarMay s c op cls regs) (hk : body (cellOf s c) = .done k) (hkn : k.notes = [])
    (hs : NoSceneWait s c) : onScalar s c o2 (fun _ => scalarStep op cls regs bad body) = .next (ran s c (nextPc s c) k) := by
  subst hb
  have retires : scalarStep op cls regs false body (cellOf s c) = scalarRetire k (nextPc s c) := by
    rw [scalarStep_may s c op cls regs body h, hk]; rfl
  rw [onScalar_goes s c o2 _ h.1, runCell_counts (k := { k with sc := { k.sc with run := .running, asleep := 0, pc := nextPc s c } })
    s c _ _ hs hkn retires]
  rfl

theorem matrixSettle_notes (k : Cell) (u : Nat) : (matrixSettle k u).notes = k.notes := by
  unfold matrixSettle
  dsimp only
  split
  · split <;> rfl
  · rfl

/-- A push tells nothing, whether the command is queued or faults at once (R102). -/
theorem matrixPush_notes {c k : Cell} {u : Nat} {d : Word128} (h : matrixPush c u d = some k) : k.notes = c.notes := by
  obtain ⟨-, hk⟩ := Option.ite_none_left_eq_some.1 h
  exact (congrArg Cell.notes (Option.some.inj hk)).symm.trans (matrixSettle_notes ..)

/-! Each instruction is one of the scalar core. -/

section
variable {s : State} {c : CellRef} {x : XForm}

theorem exec_mcpush : exec (.mcpush c x) s = onScalar s c 0x30 (fun _ => mcpushStep x) := rfl
theorem exec_mcrd : exec (.mcrd c x) s = onScalar s c 0x31 (fun _ => mcrdStep x) := rfl
theorem exec_mcclr : exec (.mcclr c x) s = onScalar s c 0x32 (fun _ => mcclrStep x) := rfl
theorem exec_mcwait : exec (.mcwait c x) s = onScalar s c 0x33 (fun _ => mcwaitStep x) := rfl

/-- MCPUSH of a core that holds a fault gives its code and pushes nothing (R103, R145). -/
theorem mcpush_faulted (h : ScalarMay s c 0x30 5 [x.ra.toNat, x.rb.toNat, x.rd.toNat]) (hu : x.u.toNat ≤ 5) (hfn : x.fn = 0)
    (hf : ((cellOf s c).mat x.u.toNat).fault ≠ 0) : exec (.mcpush c x) s =
      .next (ran s c (nextPc s c) (setX s c x.rd (BitVec.ofNat 64 ((cellOf s c).mat x.u.toNat).fault))) := by
  rw [exec_mcpush, mcpushStep]
  exact scalar_done s c _ _ _ _ _ _ _ rfl (by simp [hu, hfn]) _ h (if_pos hf) rfl (sceneState_setX s c x.rd _)

theorem mcpush_accepted (h : ScalarMay s c 0x30 5 [x.ra.toNat, x.rb.toNat, x.rd.toNat]) (hu : x.u.toNat ≤ 5) (hfn : x.fn = 0)
    (hs : NoSceneWait s c) (hf : ((cellOf s c).mat x.u.toNat).fault = 0) {k : Cell}
    (hk : matrixPush (cellOf s c) x.u.toNat (xreg s c x.rb ++ xreg s c x.ra) = some k) :
    exec (.mcpush c x) s = .next (ran s c (nextPc s c) { k with sc := xset k.sc x.rd.toNat 0 }) := by
  rw [exec_mcpush, mcpushStep]
  unfold xreg at hk
  exact scalar_done_noScene _ _ _ _ _ (by simp [hu, hfn]) h (by simp only [hf, hk]; rfl) (matrixPush_notes hk) hs

theorem mcpush_full (h : ScalarMay s c 0x30 5 [x.ra.toNat, x.rb.toNat, x.rd.toNat]) (hu : x.u.toNat ≤ 5) (hfn : x.fn = 0)
    (hf : ((cellOf s c).mat x.u.toNat).fault = 0)
    (hk : matrixPush (cellOf s c) x.u.toNat (xreg s c x.rb ++ xreg s c x.ra) = none) :
    exec (.mcpush c x) s = .next (waitsIn s c 0x30 (cellOf s c)) := by
  rw [exec_mcpush, mcpushStep]
  unfold xreg at hk
  exact scalar_wait s c _ _ _ _ _ _ _ rfl (by simp [hu, hfn]) _ h (by simp only [hf, hk]; rfl) rfl rfl

theorem mcrd_reads (h : ScalarMay s c 0x31 0 [x.rd.toNat]) (hu : x.u.toNat ≤ 5) (hra : x.ra = 0) (hrb : x.rb = 0)
    (hfn : x.fn.toNat ≤ 1) : exec (.mcrd c x) s = .next (ran s c (nextPc s c) (setX s c x.rd
      (if x.fn = 0 then mcStatus ((cellOf s c).mat x.u.toNat) else ((cellOf s c).mat x.u.toNat).pmask))) := by
  rw [exec_mcrd, mcrdStep]
  exact scalar_done s c _ _ _ _ _ _ _ rfl (by simp [hu, hra, hrb, hfn]) _ h rfl rfl (sceneState_setX s c x.rd _)

/-- MCCLR may leave a core undrained that its fault had drained (R150). -/
theorem mcclr_clears (hs : NoSceneWait s c) (h : ScalarMay s c 0x32 0 []) (hu : x.u.toNat ≤ 5) (hrd : x.rd = 0) (hra : x.ra = 0)
    (hrb : x.rb = 0) (hfn : x.fn = 0) : exec (.mcclr c x) s = .next (ran s c (nextPc s c)
      ((cellOf s c).setMat x.u.toNat { (cellOf s c).mat x.u.toNat with fault := 0 })) := by
  rw [exec_mcclr, mcclrStep]
  exact scalar_done_noScene _ _ _ _ _ (by simp [hu, hrd, hra, hrb, hfn]) h rfl rfl hs

/-- How far COMPLETED is past the count that MCWAIT waits for, modulo 2^16 (R145). -/
def pastCount (m : Matrix) (w : Word) : Nat := (m.completed + 65536 - w.toNat % 65536) % 65536

theorem mcwait_past (h : ScalarMay s c 0x33 0 [x.ra.toNat, x.rd.toNat]) (hu : x.u.toNat ≤ 5) (hrb : x.rb = 0) (hfn : x.fn = 0)
    (hp : pastCount ((cellOf s c).mat x.u.toNat) (xreg s c x.ra) < 32768 ∨ ((cellOf s c).mat x.u.toNat).fault ≠ 0) :
    exec (.mcwait c x) s =
      .next (ran s c (nextPc s c) (setX s c x.rd (BitVec.ofNat 64 ((cellOf s c).mat x.u.toNat).fault))) := by
  rw [exec_mcwait, mcwaitStep]
  exact scalar_done s c _ _ _ _ _ _ _ rfl (by simp [hu, hrb, hfn]) _ h (if_pos hp) rfl (sceneState_setX s c x.rd _)

theorem mcwait_waits (h : ScalarMay s c 0x33 0 [x.ra.toNat, x.rd.toNat]) (hu : x.u.toNat ≤ 5) (hrb : x.rb = 0) (hfn : x.fn = 0)
    (hp : ¬(pastCount ((cellOf s c).mat x.u.toNat) (xreg s c x.ra) < 32768 ∨ ((cellOf s c).mat x.u.toNat).fault ≠ 0)) :
    exec (.mcwait c x) s = .next (waitsIn s c 0x33 (cellOf s c)) := by
  rw [exec_mcwait, mcwaitStep]
  exact scalar_wait s c _ _ _ _ _ _ _ rfl (by simp [hu, hrb, hfn]) _ h (if_neg hp) rfl rfl

end

/-- Settles O9, form by form; a push and an MCCLR may change what a scene change waits for, and are settled while none waits. -/
theorem matrixSequencing : Obligations.MatrixSequencing := by
  unfold Obligations.MatrixSequencing
  intro s c x u m hu
  refine ⟨fun h hfn => ⟨mcpush_faulted h hu hfn, fun hs hf k hk => mcpush_accepted h hu hfn hs hf hk, mcpush_full h hu hfn⟩,
    fun h hra hrb hfn => mcrd_reads h hu hra hrb hfn,
    fun hs h hrd hra hrb hfn => mcclr_clears hs h hu hrd hra hrb hfn,
    fun h hrb hfn => ⟨mcwait_past h hu hrb hfn, mcwait_waits h hu hrb hfn⟩⟩

end Sys2Proof.Machine
